-- ==== Sys2Proof/Word.lean ====
section
/-! DEFINITION. Bytes and frames: the two plain types every other file speaks of. -/

namespace Sys2Proof

/-- A byte: 8 bits, unsigned, bit 7 most significant (R8). -/
abbrev Byte := BitVec 8

/-- Nine bytes in index order, index 0 first (R9): the contents of `tx`, of `rx`, of a request and of
a reply. The field `b<i>` is the spec's `f[i]`. -/
structure Frame where
  b0 : Byte
  b1 : Byte
  b2 : Byte
  b3 : Byte
  b4 : Byte
  b5 : Byte
  b6 : Byte
  b7 : Byte
  b8 : Byte
deriving DecidableEq, Repr

end Sys2Proof
end

