-- ==== Sys2Proof/Config.lean ====
section
/-! DEFINITION. The parameters of the block (R6, R7), the constraints they must meet, and the values the
spec leaves open. -/

namespace Sys2Proof

/-- The named parameters of R6, each with the value the source gives (D19: a model takes them as fields,
so that one wrong literal is mended in one place). -/
structure Config where
  frameLen      : Nat  := 9
  ckFirst       : Nat  := 1
  ckLast        : Nat  := 7
  ckIndex       : Nat  := 8
  startByte     : Byte := 0xFF#8
  sensorAddr    : Byte := 0x01#8
  cmdReadCo2    : Byte := 0x86#8
  cmdCalZero    : Byte := 0x87#8
  cmdCalSpan    : Byte := 0x88#8
  cmdSetAbc     : Byte := 0x79#8
  cmdSetRange   : Byte := 0x99#8
  expectedEcho  : Byte := cmdReadCo2
  abcEnable     : Byte := 0xA0#8
  readyStatus   : Byte := 0x40#8
  tempOffset    : Nat  := 40
  pollInterval  : Nat  := 5
  timeoutBudget : Nat  := 500
deriving DecidableEq, Repr

/-- The constraints of R7: POLL_INTERVAL and TIMEOUT_BUDGET fit the 8-bit `dly` and the 16-bit `elapsed`,
and FRAME_LEN, CK_FIRST, CK_LAST and CK_INDEX are those of the frame layout (`Frame`, R81, R83). -/
def Config.valid (c : Config) : Bool :=
  decide (1 ≤ c.pollInterval ∧ c.pollInterval ≤ 255 ∧ c.timeoutBudget + c.pollInterval - 1 ≤ 65535 ∧
    c.frameLen = 9 ∧ c.ckFirst = 1 ∧ c.ckLast = 7 ∧ c.ckIndex = 8)

/-- The configuration of this hardware: the source's values (R6). -/
def Config.source : Config := {}

/-- FREE VALUE (log entry 8). R115 allows VALIDATE to compute the checksum, and so to write `acc`, also
when one of the first two tests already failed, and allows it to skip it. Which of the two a block
does for a given frame is not fixed. -/
opaque Config.sumsAfterFailure : Frame → Bool

/-- FREE VALUE (log entry 15). The 16 bits a returned count shows on the wires when it does not fit COUNT_W
(R7): the spec states none, and `rxq` is unbounded (D20). -/
opaque Config.wideCount : Nat → BitVec 16

/-- OPEN parameter `TICK_PERIOD` (R7, R197, U18): the real duration of one time unit. No rule uses it. -/
opaque Config.tickPeriod : Nat

/-- OPEN parameter `RXQ_CAP` (R7, R53, U13): the capacity of a real transport's receive queue. The
model's queue is unbounded (D20); no rule uses it (log entry 11). -/
opaque Config.rxqCap : Option Nat

end Sys2Proof
end

