-- ==== Sys2Proof/Syntax.lean ====
section
/-! DEFINITION. The words of spec/opcode_table.json, one constructor per row. A row is a word that crosses
one of the block's three encoded interfaces (R80): HOST to CORE, CORE to transport, transport to CORE. -/

namespace Sys2Proof

/-- The 14 rows of the opcode table. -/
inductive Instr where
  /-- Host word `00e` (R91): read the concentration. `en` is carried and ignored (R95). -/
  | rdconc (en : Bool)
  /-- Host word `01e` (R91): read the full response. `en` is carried and ignored (R95). -/
  | rdfull (en : Bool)
  /-- Host word `10e` (R91): configure auto-baseline-correction, `en` the enable operand. -/
  | setabc (en : Bool)
  /-- Host word `11e` (R91, R95): the reserved code. `en` is carried and ignored. -/
  | rsvd (en : Bool)
  /-- Command code 0x86 (R86): read concentration. -/
  | cmdReadCo2
  /-- Command code 0x87 (R86, R88): zero-point calibration, never sent (R87). -/
  | cmdCalZero
  /-- Command code 0x88 (R86, R88): span-point calibration, never sent (R87). -/
  | cmdCalSpan
  /-- Command code 0x79 (R86): configure auto-baseline-correction. -/
  | cmdSetAbc
  /-- Command code 0x99 (R86): configure detection range, never sent (R87). -/
  | cmdSetRange
  /-- Request frame `FF 01 86 00 00 00 00 00 79` (R82). -/
  | reqReadCo2
  /-- Request frame `FF 01 79 A0 00 00 00 00 E6` (R82). -/
  | reqAbcOn
  /-- Request frame `FF 01 79 00 00 00 00 00 86` (R82). -/
  | reqAbcOff
  /-- A request frame of the generic layout of R81, bytes 1 to 8 as operands. -/
  | req (address command data0 data1 data2 data3 data4 checksum : Byte)
  /-- A reply frame `FF 86 hh ll tt ss xx yy kk` (R83), bytes 2 to 8 as operands. -/
  | rspReadCo2 (concHi concLo tempRaw status byte6 byte7 checksum : Byte)
deriving DecidableEq, Repr

end Sys2Proof
end

