-- ==== Sys2Proof/WellFormed.lean ====
section
/-! DEFINITION. Which terms of Instr are the canonical name of their bytes. Only the generic request row
carries a constraint: its checksum field, and the rows that name the same bytes more exactly
(DESIGN CHOICE, log entry 7). -/

namespace Sys2Proof

/-- The checksum constraint of R81 in the form of R112: bytes 1 to 8 sum to zero modulo 256. -/
def requestSumsToZero (address command d0 d1 d2 d3 d4 checksum : Byte) : Bool :=
  address + command + d0 + d1 + d2 + d3 + d4 + checksum == 0#8

/-- Bytes `FF 86 …` are read as a reply (row RSP_READ_CO2, the row with the longer mask), so a generic
request has another byte there. CORE never sends an address but SENSOR_ADDR (R90). -/
def requestIsNotReply (address : Byte) : Bool := address != Config.source.expectedEcho

/-- The three request frames that have a row of their own (R82). -/
def requestHasNoOwnRow (address command d0 d1 d2 d3 d4 : Byte) : Bool :=
  !(address == Config.source.sensorAddr && d1 == 0#8 && d2 == 0#8 && d3 == 0#8 && d4 == 0#8 &&
    ((command == Config.source.cmdReadCo2 && d0 == 0#8) ||
     (command == Config.source.cmdSetAbc && (d0 == Config.source.abcEnable || d0 == 0#8))))

/-- Well-formedness of an instruction term. A reply is well-formed with any checksum byte: a wrong one is
a reply that CORE reads and answers with ChecksumMismatch (R93). -/
def WellFormed : Instr → Bool
  | .rdconc _ => true
  | .rdfull _ => true
  | .setabc _ => true
  | .rsvd _ => true
  | .cmdReadCo2 => true
  | .cmdCalZero => true
  | .cmdCalSpan => true
  | .cmdSetAbc => true
  | .cmdSetRange => true
  | .reqReadCo2 => true
  | .reqAbcOn => true
  | .reqAbcOff => true
  | .req a c d0 d1 d2 d3 d4 k =>
      requestSumsToZero a c d0 d1 d2 d3 d4 k && requestIsNotReply a &&
        requestHasNoOwnRow a c d0 d1 d2 d3 d4
  | .rspReadCo2 _ _ _ _ _ _ _ => true

end Sys2Proof
end

