-- ==== Sys2Proof/Decode.lean ====
section
/-! DEFINITION. Bytes to instructions and back: total on any bytes, a rejection by name where no row of the
opcode table matches. -/

namespace Sys2Proof

/-- Why bytes are no word of the opcode table. -/
inductive Reject where
  /-- A word is one byte (HCMD, CMDCODE) or nine (REQ, RSP): every format has a fixed length (R80, R96). -/
  | badLength (n : Nat)
  /-- One byte that is neither a 3-bit host word (R91) nor one of the five command codes (R86, R94). -/
  | unknownByte (b : Byte)
  /-- Nine bytes whose byte 0 is not START_BYTE (R84). -/
  | badStart (b : Byte)
  /-- A request layout whose checksum byte is not that of bytes 1 to 7 (R81, R85). -/
  | badRequestChecksum
deriving DecidableEq, Repr

/-- What the decoder answers. -/
inductive Decoded where
  | ok (i : Instr)
  | reject (r : Reject)
deriving DecidableEq, Repr

/-- A host word in a byte: bits 2:1 `cmd_op`, bit 0 `cmd_en` (R91). -/
def hostWord (op : BitVec 2) (en : Bool) : Byte :=
  0#5 ++ op ++ BitVec.ofBool en

/-- The host word with operation code `op` (R91). -/
def decodeHost (op : BitVec 2) (en : Bool) : Instr :=
  if op = 0#2 then .rdconc en
  else if op = 1#2 then .rdfull en
  else if op = 2#2 then .setabc en
  else .rsvd en

/-- One byte: a host word when bits 7:3 are zero (the word is always 3 bits, R96), else a command
code (R86). No command code has bits 7:3 zero, so the two never meet. -/
def decodeByte (b : Byte) : Decoded :=
  if b.extractLsb' 3 5 = 0#5 then .ok (decodeHost (b.extractLsb' 1 2) (b.getLsbD 0))
  else if b = Config.source.cmdReadCo2 then .ok .cmdReadCo2
  else if b = Config.source.cmdCalZero then .ok .cmdCalZero
  else if b = Config.source.cmdCalSpan then .ok .cmdCalSpan
  else if b = Config.source.cmdSetAbc then .ok .cmdSetAbc
  else if b = Config.source.cmdSetRange then .ok .cmdSetRange
  else .reject (.unknownByte b)

/-- A frame whose byte 0 is START_BYTE and whose byte 1 is not the reply's echo: a request (R81). -/
def decodeRequest (a c d0 d1 d2 d3 d4 k : Byte) : Decoded :=
  if requestSumsToZero a c d0 d1 d2 d3 d4 k then
    if requestHasNoOwnRow a c d0 d1 d2 d3 d4 then .ok (.req a c d0 d1 d2 d3 d4 k)
    else if c = Config.source.cmdReadCo2 then .ok .reqReadCo2
    else if d0 = Config.source.abcEnable then .ok .reqAbcOn
    else .ok .reqAbcOff
  else .reject .badRequestChecksum

/-- Nine bytes: `FF 86 …` is a reply (R83), any other `FF …` a request (R81); DESIGN CHOICE, log entry 7. -/
def decodeFrame (b0 b1 b2 b3 b4 b5 b6 b7 b8 : Byte) : Decoded :=
  if b0 = Config.source.startByte then
    if b1 = Config.source.expectedEcho then .ok (.rspReadCo2 b2 b3 b4 b5 b6 b7 b8)
    else decodeRequest b1 b2 b3 b4 b5 b6 b7 b8
  else .reject (.badStart b0)

/-- The decoder: the instruction that a word's bytes name, byte 0 first. -/
def decode : List Byte → Decoded
  | [b] => decodeByte b
  | [b0, b1, b2, b3, b4, b5, b6, b7, b8] => decodeFrame b0 b1 b2 b3 b4 b5 b6 b7 b8
  | bs => .reject (.badLength bs.length)

/-- A request's bytes in the layout of R81, the checksum by the closed form of R112. -/
def requestBytes (address command d0 : Byte) : List Byte :=
  [Config.source.startByte, address, command, d0, 0#8, 0#8, 0#8, 0#8, -(address + command + d0)]

/-- The encoder: the bytes of an instruction (R81, R83, R86, R91). -/
def encode : Instr → List Byte
  | .rdconc en => [hostWord 0#2 en]
  | .rdfull en => [hostWord 1#2 en]
  | .setabc en => [hostWord 2#2 en]
  | .rsvd en => [hostWord 3#2 en]
  | .cmdReadCo2 => [Config.source.cmdReadCo2]
  | .cmdCalZero => [Config.source.cmdCalZero]
  | .cmdCalSpan => [Config.source.cmdCalSpan]
  | .cmdSetAbc => [Config.source.cmdSetAbc]
  | .cmdSetRange => [Config.source.cmdSetRange]
  | .reqReadCo2 => requestBytes Config.source.sensorAddr Config.source.cmdReadCo2 0#8
  | .reqAbcOn => requestBytes Config.source.sensorAddr Config.source.cmdSetAbc Config.source.abcEnable
  | .reqAbcOff => requestBytes Config.source.sensorAddr Config.source.cmdSetAbc 0#8
  | .req a c d0 d1 d2 d3 d4 k => [Config.source.startByte, a, c, d0, d1, d2, d3, d4, k]
  | .rspReadCo2 hh ll tt ss xx yy kk =>
      [Config.source.startByte, Config.source.expectedEcho, hh, ll, tt, ss, xx, yy, kk]

/-- The bytes of a table word of `nbits` bits: a frame's byte 0 is the number's top byte (R9: byte 0 is
bits 71:64 of the 72-bit number, as spec/opcode_table.json writes it), and the first sent (R62).
DEDUCED, log entry 2. -/
def wordBytes (nbits w : Nat) : List Byte :=
  let n := (nbits + 7) / 8
  (List.range n).map fun i => BitVec.ofNat 8 (w / 256 ^ (n - 1 - i))

/-- The instruction the decoder reads from a table word. -/
def decodeTableWord (nbits w : Nat) : Option Instr :=
  match decode (wordBytes nbits w) with
  | .ok i => some i
  | .reject _ => none

end Sys2Proof
end

