-- ==== Sys2Proof/Machine/State.lean ====
section
/-! DEFINITION. The machine's state as plain data: CORE's eight registers (R20), the transport's queues
(R53 to R55), HOST's copies of results (R34), and the moves of the agents still to come. -/

namespace Sys2Proof.Machine

/-- The eight states of `st` (R21). -/
inductive Fsm where
  | idle | flushing | sending | waiting | reading | done | timedOut | shortRd
deriving DecidableEq, Repr

/-- The result register `res` (R29), field by field; `Result.pack` in Machine/Flags.lean is the 37-bit word. -/
structure Result where
  status : BitVec 3
  warn   : Bool
  ppm    : BitVec 16
  temp   : BitVec 9
  stat   : Byte
deriving DecidableEq, Repr

/-- How the transport answers the transactions of one CORE step. `none` everywhere and `returns := true`
is the contract TC1 to TC4 and TC6 of R60; a `some` breaks the named assumption. CORE's rules are
total for every answer (R60). DESIGN CHOICE, log entry 9. -/
structure Answers where
  /-- TC1: the count T_AVAIL returns instead of `length(rxq)`. -/
  avail : Option Nat := none
  /-- TC2: T_READ returns at most this many bytes (U6: any value from 0 to the contract's count). -/
  read : Option Nat := none
  /-- TC3: T_WRITE accepts at most this many of the bytes. -/
  write : Option Nat := none
  /-- TC3: the count T_WRITE returns instead of the number of bytes it accepted (R60: any count). R58 does
  not say that the two are one number when TC3 is broken, so each is an answer of its own. -/
  written : Option Nat := none
  /-- TC4: T_FLUSH moves at most this many of the pending bytes. -/
  flush : Option Nat := none
  /-- TC6: the transactions of the step return (U14: a call that never returns is stuck). -/
  returns : Bool := true
deriving DecidableEq, Repr

/-- A transaction of another user of the transport (R72; TC5 of R60; R228). -/
inductive UserTxn where
  | avail
  | read (n : Nat)
  | write (bytes : List Byte)
  | flush
deriving DecidableEq, Repr

/-- One move of one agent, in the notation of R97 where that has a line for it. -/
inductive Move where
  /-- An encoded word of the opcode table crosses its interface: a host word is HOST's `H_CMD` (R160). -/
  | word (bytes : List Byte)
  /-- `TAKE`: HOST's `H_TAKE` (R168). -/
  | take
  /-- `LINE b0 b1 …`: LINE appends the bytes to `rxq` (R61). -/
  | line (bytes : List Byte)
  /-- One `tick` event of CLOCK (R196); `TICK n` is `n` of them. -/
  | tick
  /-- `RUN`: CORE takes steps until none is enabled (R97); the machine's step takes them one by one. -/
  | run
  /-- One CORE step, with the transport's answers to it. -/
  | core (answers : Answers)
  /-- `rst` (R210). -/
  | rst
  /-- Another user of the transport performs a transaction (R72); while `busy` it breaks TC5. -/
  | other (t : UserTxn)
  /-- The receive queue loses, reorders, duplicates or invents bytes and is now `q`: TC6 broken (R60). -/
  | corrupt (q : List Byte)
deriving DecidableEq, Repr

/-- The machine. -/
structure State where
  st      : Fsm
  op      : BitVec 2
  tx      : Frame
  rx      : Frame
  acc     : Byte
  elapsed : BitVec 16
  dly     : BitVec 8
  res     : Result
  rxq     : List Byte
  txpend  : List Byte
  wire    : List Byte
  taken   : List Result
  started : Bool
  script  : List Move
  /-- The moves that come round for ever once the script is used up (R222, U22). DESIGN CHOICE, log entry 1. -/
  cycle   : List Move
deriving DecidableEq, Repr

/-- Why the machine stops with a fault. -/
inductive Fault where
  /-- A transport call that never returns: CORE is stuck in the step (U14, R60 TC6). Raised by `coreMove`
  for a move whose answers do not return. Safe: nothing follows it. -/
  | transportStuck
deriving DecidableEq, Repr

/-- Why the machine gives no meaning. -/
inductive Refusal where
  /-- A word of the opcode table without a meaning yet. Raised by `exec` alone. Safe. -/
  | notModelled (mnemonic : String)
  /-- A command code that is a constant with no step (R87, U3), where no reply carries it to CORE as an
  echo. Raised by the meanings of CMD_CAL_ZERO, CMD_CAL_SPAN and CMD_SET_RANGE. Safe. -/
  | neverSent (code : Byte)
  /-- Bytes that are no word of the opcode table (R94, U4). Raised by `step`. Safe (log entry 12). -/
  | noSuchWord (why : Reject)
  /-- Parameters outside the constraints of R7 (U19). Raised by `step`. Safe. -/
  | badConfig
  /-- A block to which `rst` was never applied has no meaning (R213, U16). Raised by `step` for every move
  in which CORE takes part. Safe. -/
  | neverReset
deriving DecidableEq, Repr

/-- Nine 0x00 bytes: the reset value of `tx` and `rx` (R20). -/
def zeroFrame : Frame := ⟨0#8, 0#8, 0#8, 0#8, 0#8, 0#8, 0#8, 0#8, 0#8⟩

/-- All fields 0: the reset value of `res` (R20, R210). -/
def zeroResult : Result := ⟨0#3, false, 0#16, 0#9, 0#8⟩

/-- The machine right after reset (R20, R210, R213): CORE's registers at the spec's reset values; empty
queues and no move to come (log entries 1, 3, 4, 5). -/
def State.reset : State where
  st := .idle
  op := 0#2
  tx := zeroFrame
  rx := zeroFrame
  acc := 0#8
  elapsed := 0#16
  dly := 0#8
  res := zeroResult
  rxq := []
  txpend := []
  wire := []
  taken := []
  started := true
  script := []
  cycle := []

/-- Write `st`. -/
def State.setSt (s : State) (v : Fsm) : State := { s with st := v }
/-- Write `op`. -/
def State.setOp (s : State) (v : BitVec 2) : State := { s with op := v }
/-- Write `tx`. -/
def State.setTx (s : State) (v : Frame) : State := { s with tx := v }
/-- Write `rx`. -/
def State.setRx (s : State) (v : Frame) : State := { s with rx := v }
/-- Write `acc`. -/
def State.setAcc (s : State) (v : Byte) : State := { s with acc := v }
/-- Write `elapsed`. -/
def State.setElapsed (s : State) (v : BitVec 16) : State := { s with elapsed := v }
/-- Write `dly`. -/
def State.setDly (s : State) (v : BitVec 8) : State := { s with dly := v }
/-- Write `res`. -/
def State.setRes (s : State) (v : Result) : State := { s with res := v }
/-- Write `rxq`. -/
def State.setRxq (s : State) (v : List Byte) : State := { s with rxq := v }
/-- Write `txpend`. -/
def State.setTxpend (s : State) (v : List Byte) : State := { s with txpend := v }
/-- Write `wire`. -/
def State.setWire (s : State) (v : List Byte) : State := { s with wire := v }
/-- Write `taken`. -/
def State.setTaken (s : State) (v : List Result) : State := { s with taken := v }
/-- Write `started`. -/
def State.setStarted (s : State) (v : Bool) : State := { s with started := v }
/-- Write `script`. -/
def State.setScript (s : State) (v : List Move) : State := { s with script := v }
/-- Write `cycle`. -/
def State.setCycle (s : State) (v : List Move) : State := { s with cycle := v }

end Sys2Proof.Machine
end

