-- ==== Sys2Proof/Machine/Operands.lean ====
section
/-! DEFINITION. Operand assembly (R92): buffer access (R10, R51), the frame layouts (R81, R83) and the
decoders of a reply (R119 to R121). -/

namespace Sys2Proof.Machine

/-- The nine bytes of a buffer in index order, which is transmission order (R9, R62). -/
def frameBytes (f : Frame) : List Byte := [f.b0, f.b1, f.b2, f.b3, f.b4, f.b5, f.b6, f.b7, f.b8]

/-- The buffer holding nine given bytes; any other number of bytes leaves `old` (no rule uses one, R51). -/
def frameOf (old : Frame) : List Byte → Frame
  | [b0, b1, b2, b3, b4, b5, b6, b7, b8] => ⟨b0, b1, b2, b3, b4, b5, b6, b7, b8⟩
  | _ => old

/-- `MemRead(B, i, n)` (R10): the bytes `B[i], …, B[i+n-1]`, for `i + n ≤ 9`. -/
def memRead (f : Frame) (i n : Nat) : List Byte := ((frameBytes f).drop i).take n

/-- `MemWrite(B, i, n, v)` with `n` the length of `v` (R10), for `i + n ≤ 9`: the other bytes stay. -/
def memWrite (f : Frame) (i : Nat) (v : List Byte) : Frame :=
  frameOf f ((frameBytes f).take i ++ v ++ (frameBytes f).drop (i + v.length))

/-- The byte `B[i]` (R10), for `i ≤ 8`; no rule uses another index (R51). -/
def frameByte (f : Frame) (i : Nat) : Byte := (frameBytes f).getD i 0#8

/-- The nine bytes of a request frame in the layout of R81. -/
def requestFrame (c : Config) (address command d0 d1 d2 d3 d4 checksum : Byte) : Frame :=
  ⟨c.startByte, address, command, d0, d1, d2, d3, d4, checksum⟩

/-- The nine bytes of a reply frame in the layout of R83. -/
def replyFrame (c : Config) (concHi concLo tempRaw status byte6 byte7 checksum : Byte) : Frame :=
  ⟨c.startByte, c.expectedEcho, concHi, concLo, tempRaw, status, byte6, byte7, checksum⟩

/-- `data0` of a SETABC request (R89, R163). -/
def abcData (c : Config) (en : Bool) : Byte := if en then c.abcEnable else 0#8

/-- `DECODE_PPM` (R119): big-endian over bytes 2 and 3, `{f[2], f[3]}`. -/
def decodePpm (f : Frame) : BitVec 16 := f.b2 ++ f.b3

/-- `DECODE_TEMP` (R120): `trunc_9(zext_9(f[4]) - TEMP_OFFSET)`, 9-bit two's complement (R30). -/
def decodeTemp (c : Config) (f : Frame) : BitVec 9 := f.b4.zeroExtend 9 - BitVec.ofNat 9 c.tempOffset

/-- `DECODE_STATUS` (R121): the raw byte `f[5]` and whether it differs from READY_STATUS. -/
def decodeStatus (c : Config) (f : Frame) : Byte × Bool := (f.b5, f.b5 != c.readyStatus)

end Sys2Proof.Machine
end

