-- ==== Sys2Proof/Machine/Flags.lean ====
section
/-! DEFINITION. The flags of the block: outcome codes (R180), the result word (R29), the results of the
operations (R161, R162, R181), and the outputs that are functions of `st` (R33). -/

namespace Sys2Proof.Machine

/-- The 3-bit codes of `st` (R21). -/
def fsmCode : Fsm → BitVec 3
  | .idle => 0#3
  | .flushing => 1#3
  | .sending => 2#3
  | .waiting => 3#3
  | .reading => 4#3
  | .done => 5#3
  | .timedOut => 6#3
  | .shortRd => 7#3

/-- The error kinds: five of the source and IllegalOp (R180). -/
inductive ErrorKind where
  | noResponse | badStartByte | badCommandEcho | checksumMismatch | shortRead | illegalOp
deriving DecidableEq, Repr

/-- `code(E)` (R180). Code 0 is OK; code 6 is never produced. -/
def errorCode : ErrorKind → BitVec 3
  | .noResponse => 1#3
  | .badStartByte => 2#3
  | .badCommandEcho => 3#3
  | .checksumMismatch => 4#3
  | .shortRead => 5#3
  | .illegalOp => 7#3

/-- What a reader of `res.status` makes of the code: `none` is OK, and code 6 is not read at all (U9). -/
def readStatus (code : BitVec 3) : Option (Option ErrorKind) :=
  if code = 0#3 then some none
  else if code = 1#3 then some (some .noResponse)
  else if code = 2#3 then some (some .badStartByte)
  else if code = 3#3 then some (some .badCommandEcho)
  else if code = 4#3 then some (some .checksumMismatch)
  else if code = 5#3 then some (some .shortRead)
  else if code = 7#3 then some (some .illegalOp)
  else none

/-- The terminal state of an error (R180). -/
def terminalOf : ErrorKind → Fsm
  | .noResponse => .timedOut
  | .shortRead => .shortRd
  | .badStartByte => .done
  | .badCommandEcho => .done
  | .checksumMismatch => .done
  | .illegalOp => .done

/-- The result an error leaves: its code, every other field 0 (R181). -/
def errorResult (e : ErrorKind) : Result := ⟨errorCode e, false, 0#16, 0#9, 0#8⟩

/-- The result of SETABC: status OK, every other field 0 (R135, R163). -/
def okResult : Result := ⟨0#3, false, 0#16, 0#9, 0#8⟩

/-- `RESULT_RDCONC(rx)` (R161). -/
def resultRdconc (c : Config) (rx : Frame) : Result := ⟨0#3, (decodeStatus c rx).2, decodePpm rx, 0#9, 0#8⟩

/-- `RESULT_RDFULL(rx)` (R162). -/
def resultRdfull (c : Config) (rx : Frame) : Result :=
  ⟨0#3, false, decodePpm rx, decodeTemp c rx, (decodeStatus c rx).1⟩

/-- `res` as the 37-bit word (R29): stat 36:29, temp 28:20, ppm 19:4, warn 3, status 2:0. -/
def packResult (r : Result) : BitVec 37 :=
  r.status.setWidth 37 ||| (BitVec.ofBool r.warn).setWidth 37 <<< 3 ||| r.ppm.setWidth 37 <<< 4 |||
    r.temp.setWidth 37 <<< 20 ||| r.stat.setWidth 37 <<< 29

/-- The fields of a 37-bit result word (R29). -/
def unpackResult (w : BitVec 37) : Result :=
  ⟨w.extractLsb' 0 3, w.getLsbD 3, w.extractLsb' 4 16, w.extractLsb' 20 9, w.extractLsb' 29 8⟩

/-- A terminal state: the FSM waits there for H_TAKE (R12, R33). -/
def isTerminal : Fsm → Bool
  | .done => true
  | .timedOut => true
  | .shortRd => true
  | .idle => false
  | .flushing => false
  | .sending => false
  | .waiting => false
  | .reading => false

/-- `busy = (st ≠ Idle)` (R33). -/
def busy (s : State) : Bool := s.st != .idle

/-- `res_valid` (R33). -/
def resValid (s : State) : Bool := isTerminal s.st

end Sys2Proof.Machine
end

