-- ==== Sys2Proof/Machine/FrameCodec.lean ====
section
/-! DEFINITION. FrameCodec (R110): the checksum accumulator, the frame builder and the validator. -/

namespace Sys2Proof.Machine

/-- The sum CKSUM leaves in `acc` (R111): seed 0x00, then one addition modulo 256 per byte, in order. -/
def cksumAcc (bs : List Byte) : Byte := bs.foldl (fun acc b => acc + b) 0#8

/-- `CKSUM(b)` (R111): the sum complemented, plus one, truncated to 8 bits. -/
def cksum (bs : List Byte) : Byte := ~~~(cksumAcc bs) + 1#8

/-- The bytes a frame's checksum covers: indices CK_FIRST to CK_LAST (R85). -/
def summedBytes (c : Config) (f : Frame) : List Byte := memRead f c.ckFirst (c.ckLast + 1 - c.ckFirst)

/-- The checksum byte written into a frame at CK_INDEX (R85, R113). -/
def storeCksum (c : Config) (f : Frame) : Frame := memWrite f c.ckIndex [cksum (summedBytes c f)]

/-- `BUILD(a, c, d)` (R113): bytes 0 to 7 as given, then the checksum of CK_FIRST to CK_LAST at CK_INDEX. -/
def build (c : Config) (address command d0 d1 d2 d3 d4 : Byte) : Frame :=
  storeCksum c (requestFrame c address command d0 d1 d2 d3 d4 0#8)

/-- `VALIDATE(f)` (R115): start byte, command echo, checksum; the first test that fails decides, and
`none` is OK. -/
def validate (c : Config) (f : Frame) : Option ErrorKind :=
  if f.b0 ≠ c.startByte then some .badStartByte
  else if f.b1 ≠ c.expectedEcho then some .badCommandEcho
  else if frameByte f c.ckIndex ≠ cksum (summedBytes c f) then some .checksumMismatch
  else none

/-- `acc` after VALIDATE. The third test computes the checksum; when an earlier test failed R115 allows
the block to compute it or not, and the free value says which (log entry 8). -/
def validateAcc (c : Config) (f : Frame) (acc : Byte) : Byte :=
  if f.b0 = c.startByte ∧ f.b1 = c.expectedEcho then cksumAcc (summedBytes c f)
  else if Config.sumsAfterFailure f then cksumAcc (summedBytes c f) else acc

end Sys2Proof.Machine
end

