-- ==== Sys2Proof/Machine/Ops.lean ====
section
/-! DEFINITION. The operations every step is made of: the four transport transactions (R56 to R59), raising
an error and taking its result (R181, R168), building a request into `tx`, and reset. -/

namespace Sys2Proof.Machine

/-- `T_AVAIL()` (R56): the count it returns; under TC1 the length of `rxq`. -/
def tAvail (a : Answers) (s : State) : Nat := a.avail.getD s.rxq.length

/-- The count `k` of `T_READ(n)` (R57): under TC2 `min(n, length(rxq))`, without it any smaller count. -/
def readCount (a : Answers) (n : Nat) (s : State) : Nat := min (a.read.getD n) (min n s.rxq.length)

/-- The bytes `T_READ(n)` returns (R57): the first `k` of `rxq`, oldest first. -/
def tReadBytes (a : Answers) (n : Nat) (s : State) : List Byte := s.rxq.take (readCount a n s)

/-- What `T_READ(n)` does to `rxq` (R57): the bytes it returns are removed. -/
def tRead (a : Answers) (n : Nat) (s : State) : State := s.setRxq (s.rxq.drop (readCount a n s))

/-- How many of the bytes `T_WRITE(v)` accepts (R58): under TC3 all of them. DESIGN CHOICE, log entry 9: with
TC3 broken they are a prefix of `v`, so never more than its length. -/
def writeCount (a : Answers) (v : List Byte) : Nat := min (a.write.getD v.length) v.length

/-- The count `T_WRITE(v)` returns (R58): under TC3 the length of `v`. DESIGN CHOICE, log entry 9: with TC3
broken R58 is silent on whether it is the number of bytes accepted and R60 allows any count, so it is an
answer of its own; CORE ignores it. -/
def writeReturn (a : Answers) (v : List Byte) : Nat := a.written.getD (writeCount a v)

/-- `T_WRITE(v)` (R58): the accepted bytes join the pending output. The count is ignored by CORE. -/
def tWrite (a : Answers) (v : List Byte) (s : State) : State :=
  s.setTxpend (s.txpend ++ v.take (writeCount a v))

/-- How many pending bytes `T_FLUSH` moves (R59): under TC4 all of them. -/
def flushCount (a : Answers) (s : State) : Nat := min (a.flush.getD s.txpend.length) s.txpend.length

/-- `T_FLUSH()` (R59): pending bytes go to the wire, in order. -/
def tFlush (a : Answers) (s : State) : State :=
  (s.setWire (s.wire ++ s.txpend.take (flushCount a s))).setTxpend (s.txpend.drop (flushCount a s))

/-- The result and the terminal state of an operation, written together (R29). -/
def finish (r : Result) (terminal : Fsm) (s : State) : State := (s.setRes r).setSt terminal

/-- `raise E` (R181): `res` takes the error's code with every other field 0, `st` its terminal state, and
no other register changes. This is the block's one way of taking an exception. -/
def raise (e : ErrorKind) (s : State) : State := finish (errorResult e) (terminalOf e) s

/-- `H_TAKE` (R168, R192), the return from a terminal state: HOST gets `res`, `st` goes to Idle, and `res`
keeps its value. In any other state it is not enabled and nothing changes. -/
def takeResult (s : State) : State :=
  if isTerminal s.st then (s.setTaken (s.taken ++ [s.res])).setSt .idle else s

/-- BUILD invoked by a host operation (R113): all nine bytes of `tx` and `acc`, in one step. -/
def buildTx (c : Config) (command d0 : Byte) (s : State) : State :=
  let f := build c c.sensorAddr command d0 0#8 0#8 0#8 0#8
  (s.setTx f).setAcc (cksumAcc (summedBytes c f))

/-- `rst` (R210 to R212): every register of CORE takes its reset value in any state; the transport's queues,
HOST's copies and the moves to come are untouched (log entries 4, 13). -/
def resetCore (s : State) : State :=
  { State.reset with
    rxq := s.rxq, txpend := s.txpend, wire := s.wire, taken := s.taken,
    script := s.script, cycle := s.cycle }

end Sys2Proof.Machine
end

