-- ==== Sys2Proof/Machine/Exchange.lean ====
section
/-! DEFINITION. Transport Exchange: one rule per CORE step (R130 to R146). Every rule takes the
configuration and the transport's answers to its transactions. -/

namespace Sys2Proof.Machine

/-- Step FLUSH (R132): T_AVAIL, then T_READ(1) whose byte is dropped, or on to Sending. -/
def flushStep (a : Answers) (s : State) : State :=
  if tAvail a s = 0 then s.setSt .sending else (tRead a 1 s).setSt .flushing

/-- Step SEND (R135): the whole of `tx` is written and flushed in one step; SETABC ends here with OK, a
read operation goes on to Waiting. Any other `op` takes the last branch too (DEDUCED, log entry 14). DESIGN
CHOICE, log entry 16: with TC5 broken too no byte of another writer comes between those of the request. -/
def sendStep (c : Config) (a : Answers) (s : State) : State :=
  let sent := ((tFlush a (tWrite a (memRead s.tx 0 c.frameLen) s)).setElapsed 0#16).setDly 0#8
  if s.op = 2#2 then finish okResult .done sent else sent.setSt .waiting

/-- Step POLL (R138): data first, then the budget, then another delay. -/
def pollStep (c : Config) (a : Answers) (s : State) : State :=
  if tAvail a s ≠ 0 then s.setSt .reading
  else if c.timeoutBudget ≤ s.elapsed.toNat then raise .noResponse s
  else (s.setDly (BitVec.ofNat 8 c.pollInterval)).setSt .waiting

/-- Step READ with nine bytes read into `rx` (R144): validate, then the result of the operation; any `op` but 0
takes the last branch (DEDUCED, log entry 14). -/
def finishRead (c : Config) (s : State) : State :=
  let s' := s.setAcc (validateAcc c s.rx s.acc)
  match validate c s.rx with
  | some e => raise e s'
  | none => finish (if s.op = 0#2 then resultRdconc c s.rx else resultRdfull c s.rx) .done s'

/-- Step READ (R143 to R145): one T_READ(9) into `rx[0..k-1]`; fewer than nine bytes raise ShortRead. -/
def readStep (c : Config) (a : Answers) (s : State) : State :=
  let got := tReadBytes a c.frameLen s
  let s' := (tRead a c.frameLen s).setRx (memWrite s.rx 0 got)
  if got.length = c.frameLen then finishRead c s' else raise .shortRead s'

/-- Step TICK (R140) where CORE delays; a `tick` event anywhere else changes nothing (R141). -/
def tickStep (s : State) : State :=
  if s.st = .waiting ∧ s.dly ≠ 0#8 then (s.setDly (s.dly - 1#8)).setElapsed (s.elapsed + 1#16) else s

/-- Whether a CORE step is enabled that needs no other agent (R130). -/
def coreEnabled (s : State) : Bool :=
  match s.st with
  | .flushing => true
  | .sending => true
  | .reading => true
  | .waiting => s.dly == 0#8
  | .idle => false
  | .done => false
  | .timedOut => false
  | .shortRd => false

/-- The one CORE step enabled in a state (R130); where none is, nothing changes (R147). -/
def coreStep (c : Config) (a : Answers) (s : State) : State :=
  match s.st with
  | .flushing => flushStep a s
  | .sending => sendStep c a s
  | .waiting => if s.dly = 0#8 then pollStep c a s else s
  | .reading => readStep c a s
  | .idle => s
  | .done => s
  | .timedOut => s
  | .shortRd => s

end Sys2Proof.Machine
end

