-- ==== Sys2Proof/Machine/Agents.lean ====
section
/-! DEFINITION. The moves of the agents that carry no encoded word (R11, R97), and which moves CORE takes
part in. -/

namespace Sys2Proof.Machine

/-- The CORE step with given answers. A transaction that never returns leaves CORE stuck (U14); every
CORE step makes one. Where no CORE step is enabled nothing changes. -/
def coreMove (c : Config) (a : Answers) (s : State) : Host.Outcome State Fault Refusal :=
  if coreEnabled s && !a.returns then .fault .transportStuck else .next (coreStep c a s)

/-- LINE's move (R61): the bytes join the tail of `rxq`. -/
def lineMove (bytes : List Byte) (s : State) : State := s.setRxq (s.rxq ++ bytes)

/-- A transaction of another user of the transport (R72, R228), under the contract. DESIGN CHOICE, log entry 16:
also while `busy` (TC5 broken) it comes before or after a whole CORE step, never inside one, so its bytes
stand before or behind the bytes a SEND writes and never between them. -/
def otherMove (t : UserTxn) (s : State) : State :=
  match t with
  | .avail => s
  | .read n => tRead {} n s
  | .write bytes => tWrite {} bytes s
  | .flush => tFlush {} s

/-- Whether CORE takes part in a move: of a block that was never reset such a move has no meaning
(R213); `rst` has one, and so do the moves that touch the transport alone. -/
def involvesCore : Move → Bool
  | .word _ => true
  | .take => true
  | .tick => true
  | .run => true
  | .core _ => true
  | .line _ => false
  | .rst => false
  | .other _ => false
  | .corrupt _ => false

/-- The moves to come: what is left of the script, and behind the last of them those of the cycle, which come
round for ever (R133, R222, U22). Empty only where both are. DESIGN CHOICE, log entry 1. -/
def upcoming (s : State) : List Move :=
  match s.script with
  | [] => s.cycle
  | m :: rest => m :: rest

/-- What is left of the moves to come after the first was taken: `RUN` stays while a CORE step is enabled
(R97), every other line is done with until the cycle brings it round again. -/
def restOfScript (m : Move) (rest : List Move) (s : State) : List Move :=
  match m with
  | .run => if coreEnabled s then .run :: rest else rest
  | .word _ => rest
  | .take => rest
  | .tick => rest
  | .core _ => rest
  | .line _ => rest
  | .rst => rest
  | .other _ => rest
  | .corrupt _ => rest

end Sys2Proof.Machine
end

