-- ==== Sys2Proof/Machine/HostWords.lean ====
section
/-! DEFINITION. The host words (R160 to R165): `H_CMD(cmd_op, cmd_en)`. -/

namespace Sys2Proof.Machine

/-- The accepting step of a read operation (R161, R162): both send the read-concentration request. -/
def acceptRead (c : Config) (op : BitVec 2) (s : State) : State :=
  ((buildTx c c.cmdReadCo2 0#8 s).setOp op).setSt .flushing

/-- The accepting step of SETABC (R163): no Flushing. -/
def acceptSetabc (c : Config) (en : Bool) (s : State) : State :=
  ((buildTx c c.cmdSetAbc (abcData c en) s).setOp 2#2).setSt .sending

/-- The accepting step of the reserved code (R165): IllegalOp at once, no request, no transaction. -/
def acceptReserved (s : State) : State := raise .illegalOp (s.setOp 3#2)

/-- `H_CMD` is enabled exactly in Idle; offered elsewhere it has no effect and is not queued (R160). -/
def offer (accept : State → State) (s : State) : State := if s.st = .idle then accept s else s

/-- RDCONC (R161); `cmd_en` is ignored (R95). -/
def execRdconc (_en : Bool) (s : State) : Host.Outcome State Fault Refusal :=
  .next (offer (acceptRead Config.source 0#2) s)

/-- RDFULL (R162); `cmd_en` is ignored (R95). -/
def execRdfull (_en : Bool) (s : State) : Host.Outcome State Fault Refusal :=
  .next (offer (acceptRead Config.source 1#2) s)

/-- SETABC (R163). -/
def execSetabc (en : Bool) (s : State) : Host.Outcome State Fault Refusal :=
  .next (offer (acceptSetabc Config.source en) s)

/-- The reserved code (R165); `cmd_en` is ignored (R95). -/
def execRsvd (_en : Bool) (s : State) : Host.Outcome State Fault Refusal :=
  .next (offer acceptReserved s)

end Sys2Proof.Machine
end

