-- ==== Sys2Proof/Machine/WireWords.lean ====
section
/-! DEFINITION. The words of the wire (R80 to R94). A word's meaning is the step in which it crosses the
transport interface: a request frame crosses in SEND (R135), a reply frame arrives by LINE's move
(R61) and crosses in READ (R143), a command code crosses as byte 2 of a request or as byte 1 of a
reply (R86). Log entry 6. -/

namespace Sys2Proof.Machine

/-- CORE sends the frame `f`: the SEND step when CORE is in Sending and `f` is the frame in `tx` (R135).
SEND is the only step that writes to the transport (R136): anywhere else CORE sends nothing. -/
def sendFrame (c : Config) (f : Frame) (s : State) : State :=
  if s.st = .sending ∧ s.tx = f then sendStep c {} s else s

/-- The reply frame at the head of the receive queue when CORE is in Reading: the nine bytes that READ
will take under the contract (R83, R143). -/
def readyReply (c : Config) (s : State) : Option Frame :=
  if s.st = .reading ∧ c.frameLen ≤ s.rxq.length then
    some (frameOf zeroFrame (s.rxq.take c.frameLen))
  else none

/-- The frame `f` comes in: the READ step when it is the reply CORE is about to read (R143), otherwise
LINE's move, which puts its nine bytes at the tail of the receive queue (R61). -/
def receiveFrame (c : Config) (f : Frame) (s : State) : State :=
  if readyReply c s = some f then readStep c {} s else s.setRxq (s.rxq ++ frameBytes f)

/-- Whether CORE is about to read a reply that echoes `code`: byte 0 START_BYTE, byte 1 `code` (R83, R93). -/
def echoReady (c : Config) (code : Byte) (s : State) : Bool :=
  match readyReply c s with
  | some f => f.b0 == c.startByte && f.b1 == code
  | none => false

/-- A command code that CORE sends (R87): SEND of a request that carries it in byte 2, READ of a reply that
echoes it; anywhere else the code crosses no interface. -/
def sentCode (c : Config) (code : Byte) (s : State) : Host.Outcome State Fault Refusal :=
  if s.st = .sending ∧ s.tx.b2 = code then .next (sendStep c {} s)
  else if echoReady c code s then .next (readStep c {} s)
  else .next s

/-- A command code that CORE never sends (R87): READ of a reply that echoes it, which R93 rejects with
BadCommandEcho; as a request it is a constant with no step (U3), refused by name. -/
def unsentCode (c : Config) (code : Byte) (s : State) : Host.Outcome State Fault Refusal :=
  if echoReady c code s then .next (readStep c {} s) else .refused (.neverSent code)

/-- CMD_READ_CO2, 0x86 (R86). -/
def execCmdReadCo2 (s : State) : Host.Outcome State Fault Refusal :=
  sentCode Config.source Config.source.cmdReadCo2 s

/-- CMD_CAL_ZERO, 0x87 (R86, R87). -/
def execCmdCalZero (s : State) : Host.Outcome State Fault Refusal :=
  unsentCode Config.source Config.source.cmdCalZero s

/-- CMD_CAL_SPAN, 0x88 (R86, R87). -/
def execCmdCalSpan (s : State) : Host.Outcome State Fault Refusal :=
  unsentCode Config.source Config.source.cmdCalSpan s

/-- CMD_SET_ABC, 0x79 (R86). -/
def execCmdSetAbc (s : State) : Host.Outcome State Fault Refusal :=
  sentCode Config.source Config.source.cmdSetAbc s

/-- CMD_SET_RANGE, 0x99 (R86, R87). -/
def execCmdSetRange (s : State) : Host.Outcome State Fault Refusal :=
  unsentCode Config.source Config.source.cmdSetRange s

/-- REQ_READ_CO2 (R82): the request of RDCONC and RDFULL. -/
def execReqReadCo2 (s : State) : Host.Outcome State Fault Refusal :=
  .next (sendFrame Config.source
    (build Config.source Config.source.sensorAddr Config.source.cmdReadCo2 0#8 0#8 0#8 0#8 0#8) s)

/-- REQ_ABC_ON (R82): the request of SETABC 1. -/
def execReqAbcOn (s : State) : Host.Outcome State Fault Refusal :=
  .next (sendFrame Config.source (build Config.source Config.source.sensorAddr Config.source.cmdSetAbc
    (abcData Config.source true) 0#8 0#8 0#8 0#8) s)

/-- REQ_ABC_OFF (R82): the request of SETABC 0. -/
def execReqAbcOff (s : State) : Host.Outcome State Fault Refusal :=
  .next (sendFrame Config.source (build Config.source Config.source.sensorAddr Config.source.cmdSetAbc
    (abcData Config.source false) 0#8 0#8 0#8 0#8) s)

/-- REQ (R81): a request frame with any operands. -/
def execReq (a c d0 d1 d2 d3 d4 k : Byte) (s : State) : Host.Outcome State Fault Refusal :=
  .next (sendFrame Config.source (requestFrame Config.source a c d0 d1 d2 d3 d4 k) s)

/-- RSP_READ_CO2 (R83): a reply frame. -/
def execRspReadCo2 (hh ll tt ss xx yy kk : Byte) (s : State) : Host.Outcome State Fault Refusal :=
  .next (receiveFrame Config.source (replyFrame Config.source hh ll tt ss xx yy kk) s)

end Sys2Proof.Machine
end

