-- ==== Sys2Proof/Machine/Dispatch.lean ====
section
/-! DEFINITION. One arm per word of the opcode table. -/

namespace Sys2Proof.Machine

def exec (i : Instr) (s : State) : Host.Outcome State Fault Refusal :=
  match i with
  | .rdconc en => Sys2Proof.Machine.execRdconc en s
  | .rdfull en => Sys2Proof.Machine.execRdfull en s
  | .setabc en => Sys2Proof.Machine.execSetabc en s
  | .rsvd en => Sys2Proof.Machine.execRsvd en s
  | .cmdReadCo2 => Sys2Proof.Machine.execCmdReadCo2 s
  | .cmdCalZero => Sys2Proof.Machine.execCmdCalZero s
  | .cmdCalSpan => Sys2Proof.Machine.execCmdCalSpan s
  | .cmdSetAbc => Sys2Proof.Machine.execCmdSetAbc s
  | .cmdSetRange => Sys2Proof.Machine.execCmdSetRange s
  | .reqReadCo2 => Sys2Proof.Machine.execReqReadCo2 s
  | .reqAbcOn => Sys2Proof.Machine.execReqAbcOn s
  | .reqAbcOff => Sys2Proof.Machine.execReqAbcOff s
  | .req a c d0 d1 d2 d3 d4 k => Sys2Proof.Machine.execReq a c d0 d1 d2 d3 d4 k s
  | .rspReadCo2 hh ll tt ss xx yy kk => Sys2Proof.Machine.execRspReadCo2 hh ll tt ss xx yy kk s

end Sys2Proof.Machine
end

