-- ==== Sys2Proof/Machine/Moves.lean ====
section
/-! DEFINITION. What each move does, the words among them decoded and run. -/

namespace Sys2Proof.Machine

/-- The bytes of a word are decoded and the instruction is run; bytes that are no word are refused. -/
def execWord (bytes : List Byte) (s : State) : Host.Outcome State Fault Refusal :=
  match decode bytes with
  | .ok i => exec i s
  | .reject r => .refused (.noSuchWord r)

/-- What a move does, its place among the moves to come already left. -/
def perform (m : Move) (s : State) : Host.Outcome State Fault Refusal :=
  match m with
  | .word bytes => execWord bytes s
  | .take => .next (takeResult s)
  | .line bytes => .next (lineMove bytes s)
  | .tick => .next (tickStep s)
  | .run => coreMove Config.source {} s
  | .core a => coreMove Config.source a s
  | .rst => .next (resetCore s)
  | .other t => .next (otherMove t s)
  | .corrupt q => .next (s.setRxq q)

/-- With no move left CORE goes on by itself under the contract as long as a CORE step is enabled (R130),
and then nothing more happens. -/
def coreAlone (s : State) : Host.Outcome State Fault Refusal :=
  if s.started then coreMove Config.source {} s else .refused .neverReset

/-- The first of the moves to come is taken. A block that was never reset has no meaning (R213). -/
def takeMove (m : Move) (rest : List Move) (s : State) : Host.Outcome State Fault Refusal :=
  if involvesCore m && !s.started then .refused .neverReset
  else perform m (s.setScript (restOfScript m rest s))

end Sys2Proof.Machine
end

