-- ==== Sys2Proof/Machine/Step.lean ====
section
/-! DEFINITION. One step of the machine: the next of the moves to come, or CORE alone when none is left. -/

namespace Sys2Proof.Machine

/-- One step. An invalid configuration has no meaning (R7, U19). -/
def step (s : State) : Host.Outcome State Fault Refusal :=
  if !Config.source.valid then .refused .badConfig
  else
    match upcoming s with
    | [] => coreAlone s
    | m :: rest => takeMove m rest s

/-- The state with a table word placed where the next step fetches it: the head of the script. -/
def State.withFetchWord (s : State) (nbits w : Nat) : State :=
  s.setScript (.word (wordBytes nbits w) :: s.script)

end Sys2Proof.Machine
end

