-- ==== Sys2Proof/Machine/Ports.lean ====
section
/-! DEFINITION. What the block shows outside: the transport transactions of a CORE step in the order it
issues them (R65, R66), and the port lines of R71 as functions of the state and of a transaction. -/

namespace Sys2Proof.Machine

/-- One transport transaction with what it returned (R56 to R59). -/
inductive Txn where
  /-- `T_AVAIL` and the count it returned. -/
  | avail (count : Nat)
  /-- `T_READ(n)` and the bytes it returned. -/
  | read (n : Nat) (bytes : List Byte)
  /-- `T_WRITE(v)`, how many of the bytes it accepted, and the count it returned. -/
  | write (v : List Byte) (accepted count : Nat)
  /-- `T_FLUSH` and how many pending bytes it moved. -/
  | flush (moved : Nat)
deriving DecidableEq, Repr

/-- The transactions of the CORE step enabled in a state, in order (R132, R135, R138, R143). -/
def coreTxns (c : Config) (a : Answers) (s : State) : List Txn :=
  match s.st with
  | .flushing =>
      if tAvail a s = 0 then [.avail 0] else [.avail (tAvail a s), .read 1 (tReadBytes a 1 s)]
  | .sending =>
      let v := memRead s.tx 0 c.frameLen
      [.write v (writeCount a v) (writeReturn a v), .flush (flushCount a (tWrite a v s))]
  | .waiting => if s.dly = 0#8 then [.avail (tAvail a s)] else []
  | .reading => [.read c.frameLen (tReadBytes a c.frameLen s)]
  | .idle => []
  | .done => []
  | .timedOut => []
  | .shortRd => []

/-- What a transaction does to the transport's queues (R56 to R59). -/
def applyTxn (s : State) (t : Txn) : State :=
  match t with
  | .avail _ => s
  | .read _ bytes => s.setRxq (s.rxq.drop bytes.length)
  | .write v accepted _ => s.setTxpend (s.txpend ++ v.take accepted)
  | .flush moved =>
      (s.setWire (s.wire ++ s.txpend.take moved)).setTxpend (s.txpend.drop moved)

/-- `cmd_ready = not busy` (R71). -/
def cmdReady (s : State) : Bool := !busy s

/-- `res_data`: the result word (R71, R29). -/
def resData (s : State) : BitVec 37 := packResult s.res

/-- `t_req_op`: 0 T_AVAIL, 1 T_READ, 2 T_WRITE, 3 T_FLUSH (R71). -/
def txnReqOp : Txn → BitVec 2
  | .avail _ => 0#2
  | .read _ _ => 1#2
  | .write _ _ _ => 2#2
  | .flush _ => 3#2

/-- `t_req_len`: `n` of T_READ, `len` of T_WRITE (R71); 0 for the two that have none (log entry 10). -/
def txnReqLen : Txn → BitVec 4
  | .avail _ => 0
  | .read n _ => BitVec.ofNat 4 n
  | .write v _ _ => BitVec.ofNat 4 v.length
  | .flush _ => 0

/-- Up to nine bytes as a 72-bit number, the first in bits 71:64 (R9, R71); bytes beyond the list are 0
(R71 says they are ignored). -/
def packBytes (bs : List Byte) : BitVec 72 :=
  let at' := fun (i : Nat) => bs.getD i 0
  at' 0 ++ at' 1 ++ at' 2 ++ at' 3 ++ at' 4 ++ at' 5 ++ at' 6 ++ at' 7 ++ at' 8

/-- `t_req_data`: the bytes of T_WRITE (R71). -/
def txnReqData : Txn → BitVec 72
  | .avail _ => 0
  | .read _ _ => 0
  | .write v _ _ => packBytes v
  | .flush _ => 0

/-- A count in COUNT_W bits (R7). DESIGN CHOICE, log entry 15: a count above 65535 shows as the free value
`Config.wideCount`. -/
def countBits (n : Nat) : BitVec 16 := if n < 65536 then BitVec.ofNat 16 n else Config.wideCount n

/-- `t_rsp_count`: the count returned, 16 bits (R71, R7). -/
def txnRspCount : Txn → BitVec 16
  | .avail count => countBits count
  | .read _ bytes => countBits bytes.length
  | .write _ _ count => countBits count
  | .flush _ => 0

/-- `t_rsp_data`: the bytes of T_READ, the first in bits 71:64 (R71). -/
def txnRspData : Txn → BitVec 72
  | .avail _ => 0
  | .read _ bytes => packBytes bytes
  | .write _ _ _ => 0
  | .flush _ => 0

end Sys2Proof.Machine
end

