-- ==== Sys2Proof/Safety.lean ====
section
/-! DEFINITION. The terms claims are stated in: the transport contract (R60), the invariants (R35, R29,
R180), the transition relation (R131), what of a state can still matter (R167), and bounded runs. -/

namespace Sys2Proof.Machine

/-! ### The transport contract (R60): each assumption a hypothesis about a move -/

/-- The answers the transport gives to the CORE step of a move; only the `core` move breaks the contract. -/
def answersOf : Option Move → Answers
  | some (.core a) => a
  | _ => {}

/-- TC1: T_AVAIL returns exactly the length of `rxq`. -/
def tc1 (m : Option Move) : Prop := (answersOf m).avail = none
/-- TC2: T_READ returns all it can. -/
def tc2 (m : Option Move) : Prop := (answersOf m).read = none
/-- TC3: T_WRITE accepts all nine bytes and returns 9. -/
def tc3 (m : Option Move) : Prop := (answersOf m).write = none ∧ (answersOf m).written = none
/-- TC4: T_FLUSH leaves nothing pending. -/
def tc4 (m : Option Move) : Prop := (answersOf m).flush = none
/-- TC5: while `busy = 1` no other user performs a transaction. -/
def tc5 (s : State) (m : Option Move) : Prop := busy s = true → ∀ t, m ≠ some (.other t)
/-- TC6: the queue keeps its bytes, and every transaction returns. -/
def tc6 (m : Option Move) : Prop := (answersOf m).returns = true ∧ ∀ q, m ≠ some (.corrupt q)

/-- TC1 to TC6 for one move in one state. -/
def KeepsContract (s : State) (m : Option Move) : Prop :=
  tc1 m ∧ tc2 m ∧ tc3 m ∧ tc4 m ∧ tc5 s m ∧ tc6 m

/-! ### The invariants -/

/-- R35 (1) and (2), with the sum of the two counters that makes them inductive: `dly` counts only in
Waiting, and a poll comes at a multiple of POLL_INTERVAL. -/
def CountersInv (c : Config) (s : State) : Prop :=
  s.dly.toNat ≤ c.pollInterval ∧ (s.st ≠ .waiting → s.dly = 0#8) ∧
  s.elapsed.toNat + s.dly.toNat ≤ c.timeoutBudget + c.pollInterval - 1 ∧
  (s.st = .waiting → c.pollInterval ∣ s.elapsed.toNat + s.dly.toNat)

/-- The read request (R82). -/
def readRequest : Frame := ⟨0xFF#8, 0x01#8, 0x86#8, 0#8, 0#8, 0#8, 0#8, 0#8, 0x79#8⟩
/-- The request of SETABC 1 (R82). -/
def abcOnRequest : Frame := ⟨0xFF#8, 0x01#8, 0x79#8, 0xA0#8, 0#8, 0#8, 0#8, 0#8, 0xE6#8⟩
/-- The request of SETABC 0 (R82). -/
def abcOffRequest : Frame := ⟨0xFF#8, 0x01#8, 0x79#8, 0#8, 0#8, 0#8, 0#8, 0#8, 0x86#8⟩

/-- R35 (3) and (4): `tx` is one of its four values, it is the request of the operation in progress, and
the states of a read operation belong to read operations. -/
def RequestInv (s : State) : Prop :=
  (s.tx = zeroFrame ∨ s.tx = readRequest ∨ s.tx = abcOnRequest ∨ s.tx = abcOffRequest) ∧
  (s.st ≠ .idle → s.op = 0#2 ∨ s.op = 1#2 → s.tx = readRequest) ∧
  (s.st ≠ .idle → s.op = 2#2 → s.tx = abcOnRequest ∨ s.tx = abcOffRequest) ∧
  (s.st = .flushing ∨ s.st = .waiting ∨ s.st = .reading ∨ s.st = .timedOut ∨ s.st = .shortRd →
    s.op = 0#2 ∨ s.op = 1#2) ∧
  (s.st = .sending → s.op ≠ 3#2)

/-- R35 (5) with the range of `temp` of R29. -/
def ResultInv (s : State) : Prop :=
  s.res.status ≠ 6#3 ∧ (s.res.warn = true → s.res.status = 0#3) ∧
  (s.res.status ≠ 0#3 → s.res.warn = false ∧ s.res.ppm = 0#16 ∧ s.res.temp = 0#9 ∧ s.res.stat = 0#8) ∧
  -40 ≤ s.res.temp.toInt ∧ s.res.temp.toInt ≤ 215

/-- The table of R180 as it shows in a terminal state: which outcomes which operation can end with, in
which state, and which fields it then defines (R29). -/
def OutcomeInv (s : State) : Prop :=
  (s.st = .timedOut → s.res = errorResult .noResponse) ∧
  (s.st = .shortRd → s.res = errorResult .shortRead) ∧
  (s.st = .done → s.op = 2#2 → s.res = okResult) ∧
  (s.st = .done → s.op = 3#2 → s.res = errorResult .illegalOp) ∧
  (s.st = .done → s.op = 0#2 → (s.res.status = 0#3 ∨ s.res.status = 2#3 ∨ s.res.status = 3#3 ∨
    s.res.status = 4#3) ∧ s.res.temp = 0#9 ∧ s.res.stat = 0#8) ∧
  (s.st = .done → s.op = 1#2 → (s.res.status = 0#3 ∨ s.res.status = 2#3 ∨ s.res.status = 3#3 ∨
    s.res.status = 4#3) ∧ s.res.warn = false)

/-- R35 whole, for the parameters of this hardware. -/
def MachineInv (s : State) : Prop :=
  CountersInv Config.source s ∧ RequestInv s ∧ ResultInv s ∧ OutcomeInv s

/-! ### The transition relation -/

/-- The rows of R131 with their conditions, for a step from `s` to `t` in which the first of the moves to
come is `m`. A step that stays in its state is no transition. -/
def Transition (s : State) (m : Option Move) (t : State) : Prop :=
  let a := answersOf m
  let accepts := fun (f : Bool → Instr) => ∃ bytes en, m = some (.word bytes) ∧ decode bytes = .ok (f en)
  match s.st, t.st with
  | .idle, .flushing => accepts .rdconc ∨ accepts .rdfull
  | .idle, .sending => accepts .setabc
  | .idle, .done => accepts .rsvd
  | .flushing, .sending => tAvail a s = 0
  | .sending, .waiting => s.op = 0#2 ∨ s.op = 1#2
  | .sending, .done => s.op = 2#2
  | .waiting, .reading => s.dly = 0#8 ∧ 0 < tAvail a s
  | .waiting, .timedOut =>
      s.dly = 0#8 ∧ tAvail a s = 0 ∧ Config.source.timeoutBudget ≤ s.elapsed.toNat
  | .reading, .done => (tReadBytes a 9 s).length = 9
  | .reading, .shortRd => (tReadBytes a 9 s).length < 9
  | from_, .idle => m = some .rst ∨ isTerminal from_ = true ∧ m = some .take
  | _, _ => False

/-! ### What can still matter -/

/-- A state with everything erased that R26, R24 and R167 say no later step can show: `rx` and `acc`
always; `res` outside the terminal states; the counters outside Waiting; `tx` once the request is
sent; `op` once the result is there. -/
def visible (s : State) : State :=
  { s with
    rx := zeroFrame
    acc := 0#8
    res := if isTerminal s.st then s.res else zeroResult
    elapsed := if s.st = .waiting then s.elapsed else 0#16
    dly := if s.st = .waiting then s.dly else 0#8
    tx := if s.st = .flushing ∨ s.st = .sending then s.tx else zeroFrame
    op := if s.st = .flushing ∨ s.st = .sending ∨ s.st = .waiting ∨ s.st = .reading then s.op else 0#2 }

/-- Two outcomes that no agent can tell apart. -/
def SameOutcome : Host.Outcome State Fault Refusal → Host.Outcome State Fault Refusal → Prop
  | .next s, .next t => visible s = visible t
  | .fault f, .fault g => f = g
  | .refused r, .refused q => r = q
  | _, _ => False

/-! ### The next states the rules give, written out field by field -/

/-- After SEND under the contract (R135): everything pending and the nine bytes of `tx` on the wire, the
counters cleared; SETABC is done with OK, a read operation waits. -/
def afterSend (s : State) : State :=
  { s with
    wire := s.wire ++ s.txpend ++ frameBytes s.tx
    txpend := []
    elapsed := 0#16
    dly := 0#8
    res := if s.op = 2#2 then okResult else s.res
    st := if s.op = 2#2 then .done else .waiting }

/-- After a READ that took the nine bytes of `f` and left `rest` (R143, R144): the error of the first test
of R115 that fails, else the result of R161 for `op = 0` and of R162 for any other. -/
def afterRead (f : Frame) (rest : List Byte) (s : State) : State :=
  { s with
    rxq := rest
    rx := f
    acc := validateAcc Config.source f s.acc
    res :=
      match validate Config.source f with
      | some e => errorResult e
      | none =>
          if s.op = 0#2 then ⟨0#3, f.b5 != 0x40#8, f.b2 ++ f.b3, 0#9, 0#8⟩
          else ⟨0#3, false, f.b2 ++ f.b3, f.b4.zeroExtend 9 - 40#9, f.b5⟩
    st := .done }

/-- After a READ that got fewer than nine bytes (R143, R145): they overwrite the front of `rx`. -/
def afterShortRead (got rest : List Byte) (s : State) : State :=
  { s with
    rxq := rest
    rx := memWrite s.rx 0 got
    res := ⟨5#3, false, 0#16, 0#9, 0#8⟩
    st := .shortRd }

/-! ### Bounded runs -/

/-- `n` tick events. -/
def ticks : Nat → State → State
  | 0, s => s
  | n + 1, s => ticks n (tickStep s)

/-- `n` CORE steps under the contract. -/
def coreSteps (c : Config) : Nat → State → State
  | 0, s => s
  | n + 1, s => coreSteps c n (coreStep c {} s)

/-- `n` rounds of Waiting with a silent LINE: one POLL, then the ticks of one delay (R142). -/
def delayRounds (c : Config) : Nat → State → State
  | 0, s => s
  | n + 1, s => delayRounds c n (ticks c.pollInterval (coreStep c {} s))

/-- `n` rounds in which CORE may step and CLOCK ticks, and no other agent moves (R196: CLOCK keeps ticking). -/
def quietRounds : Nat → List Move
  | 0 => []
  | n + 1 => .core {} :: .tick :: quietRounds n

/-- The rounds of the endless drain (R133, R222): one FLUSH step, then LINE appends the bytes of one feed. -/
def feedRounds : List (List Byte) → List Move
  | [] => []
  | feed :: feeds => .core {} :: .line feed :: feedRounds feeds

end Sys2Proof.Machine
end

