-- ==== Sys2Proof/Certificates/Slice0/Obligations.lean ====
section
/-! DEFINITION. The statements for the provers, each with the rule of spec/ it formalises. -/

open Sys2Proof Sys2Proof.Machine

/-! ### Encoding (30_encoding.md) -/

/-- Decode and encode agree: every well-formed instruction, with every operand, is what its bytes decode to
(30_encoding.md sections 1 to 3 and 5). -/
def Obligations.DecodeEncodeRoundTrip : Prop :=
  ∀ i : Instr, WellFormed i = true → decode (encode i) = .ok i

/-- The other direction: bytes the decoder accepts are the encoding of a well-formed instruction, so no two
words mean the same and no reserved bit is dropped (R93 to R96). -/
def Obligations.DecodedWordEncodesBack : Prop :=
  ∀ (bytes : List Byte) (i : Instr), decode bytes = .ok i → WellFormed i = true ∧ encode i = bytes

/-- Words written out from spec/opcode_table.json decode to their rows. -/
def Obligations.TableWordsDecode : Prop :=
  decode [0b000#8] = .ok (.rdconc false) ∧ decode [0b011#8] = .ok (.rdfull true) ∧
  decode [0b101#8] = .ok (.setabc true) ∧ decode [0b110#8] = .ok (.rsvd false) ∧
  decode [0x86#8] = .ok .cmdReadCo2 ∧ decode [0x99#8] = .ok .cmdSetRange ∧
  decode [0xFF#8, 0x01#8, 0x79#8, 0xA0#8, 0#8, 0#8, 0#8, 0#8, 0xE6#8] = .ok .reqAbcOn ∧
  decode [0xFF#8, 0x86#8, 0x02#8, 0x58#8, 0x23#8, 0x40#8, 0#8, 0#8, 0xBD#8]
    = .ok (.rspReadCo2 0x02 0x58 0x23 0x40 0 0 0xBD) ∧
  decodeTableWord 72 0xFF0186000000000079 = some .reqReadCo2

/-- R91: the host word is `cmd_op` in bits 2:1 and `cmd_en` in bit 0, its four codes select the four
operations in order, and only SETABC looks at `cmd_en`. -/
def Obligations.HostWordCodes : Prop :=
  (∀ (op : BitVec 2) (en : Bool), (hostWord op en).toNat = 2 * op.toNat + en.toNat) ∧
  (∀ en : Bool,
    decode [hostWord 0 en] = .ok (.rdconc en) ∧ decode [hostWord 1 en] = .ok (.rdfull en) ∧
    decode [hostWord 2 en] = .ok (.setabc en) ∧ decode [hostWord 3 en] = .ok (.rsvd en)) ∧
  (∀ (en en' : Bool) (s : State),
    exec (.rdconc en) s = exec (.rdconc en') s ∧ exec (.rdfull en) s = exec (.rdfull en') s ∧
    exec (.rsvd en) s = exec (.rsvd en') s)

/-- R82: BUILD makes exactly these request frames for the operands of the three host operations. -/
def Obligations.RequestFramesOfHostOperations : Prop :=
  build Config.source 0x01 0x86 0 0 0 0 0 = ⟨0xFF, 0x01, 0x86, 0, 0, 0, 0, 0, 0x79⟩ ∧
  build Config.source 0x01 0x79 0xA0 0 0 0 0 = ⟨0xFF, 0x01, 0x79, 0xA0, 0, 0, 0, 0, 0xE6⟩ ∧
  build Config.source 0x01 0x79 0 0 0 0 0 = ⟨0xFF, 0x01, 0x79, 0, 0, 0, 0, 0, 0x86⟩

/-! ### FrameCodec (40_framecodec.md) -/

/-- R112: the closed forms of the checksum. With `S` the unbounded sum, the accumulator holds `S mod 256`,
the result is `(256 - S mod 256) mod 256`, it is the one byte that brings the sum to zero, and
complementing a wider sum and truncating gives the same byte. -/
def Obligations.ChecksumClosedForms : Prop :=
  ∀ b1 b2 b3 b4 b5 b6 b7 : Byte,
    let S := b1.toNat + b2.toNat + b3.toNat + b4.toNat + b5.toNat + b6.toNat + b7.toNat
    let k := cksum [b1, b2, b3, b4, b5, b6, b7]
    (cksumAcc [b1, b2, b3, b4, b5, b6, b7]).toNat = S % 256 ∧
    k.toNat = (256 - S % 256) % 256 ∧
    (∀ j : Byte, (S + j.toNat) % 256 = 0 ↔ j = k) ∧
    (∀ w : Nat, 11 ≤ w → ((2 ^ w - 1 - S) + 1) % 256 = k.toNat)

/-- The accumulator of R111 and R118: the order of the bytes does not change the checksum, and a seed `s`
in place of zero would give the checksum less `s`. -/
def Obligations.ChecksumOrderAndSeed : Prop :=
  (∀ bs cs : List Byte, bs.Perm cs → cksum bs = cksum cs) ∧
  (∀ (bs : List Byte) (seed : Byte),
    ~~~(bs.foldl (fun acc b => acc + b) seed) + 1 = cksum bs - seed)

/-- R114 (a) to (d): a built frame starts with 0xFF and sums to zero, its stored checksum is the recomputed
one, BUILD is injective, and a built frame passes VALIDATE exactly when its address is 0x86. -/
def Obligations.BuildProperties : Prop :=
  ∀ a c d0 d1 d2 d3 d4 : Byte,
    let f := build Config.source a c d0 d1 d2 d3 d4
    f.b0 = 0xFF#8 ∧
    (f.b1.toNat + f.b2.toNat + f.b3.toNat + f.b4.toNat + f.b5.toNat + f.b6.toNat + f.b7.toNat +
      f.b8.toNat) % 256 = 0 ∧
    cksum [f.b1, f.b2, f.b3, f.b4, f.b5, f.b6, f.b7] = f.b8 ∧
    (∀ a' c' e0 e1 e2 e3 e4 : Byte, build Config.source a' c' e0 e1 e2 e3 e4 = f →
      a' = a ∧ c' = c ∧ e0 = d0 ∧ e1 = d1 ∧ e2 = d2 ∧ e3 = d3 ∧ e4 = d4) ∧
    (validate Config.source f = none ↔ a = 0x86#8) ∧
    (a ≠ 0x86#8 → validate Config.source f = some .badCommandEcho)

/-- R190 with R115: the order of the three tests. Each verdict is given exactly when its test fails and the
earlier ones pass. -/
def Obligations.ValidateOrder : Prop :=
  ∀ f : Frame,
    let k := cksum [f.b1, f.b2, f.b3, f.b4, f.b5, f.b6, f.b7]
    (validate Config.source f = some .badStartByte ↔ f.b0 ≠ 0xFF#8) ∧
    (validate Config.source f = some .badCommandEcho ↔ f.b0 = 0xFF#8 ∧ f.b1 ≠ 0x86#8) ∧
    (validate Config.source f = some .checksumMismatch ↔ f.b0 = 0xFF#8 ∧ f.b1 = 0x86#8 ∧ f.b8 ≠ k) ∧
    (validate Config.source f = none ↔ f.b0 = 0xFF#8 ∧ f.b1 = 0x86#8 ∧ f.b8 = k)

/-- R116 (a) and (b): a frame is valid exactly when it starts FF 86 and bytes 1 to 8 sum to zero; for any
bytes 2 to 7 there is exactly one checksum byte that makes it so (so 2^48 frames are valid). -/
def Obligations.ValidFramesSumToZero : Prop :=
  (∀ f : Frame, validate Config.source f = none ↔
    f.b0 = 0xFF#8 ∧ f.b1 = 0x86#8 ∧
    (f.b1.toNat + f.b2.toNat + f.b3.toNat + f.b4.toNat + f.b5.toNat + f.b6.toNat + f.b7.toNat +
      f.b8.toNat) % 256 = 0) ∧
  (∀ b2 b3 b4 b5 b6 b7 : Byte,
    ∃! b8 : Byte, validate Config.source ⟨0xFF, 0x86, b2, b3, b4, b5, b6, b7, b8⟩ = none)

/-- R116 (c): changing any one byte of a valid reply to another value makes it invalid, with the verdict
that belongs to the byte's place. -/
def Obligations.SingleByteCorruptionDetected : Prop :=
  ∀ (f : Frame) (i : Nat) (v : Byte), i < 9 → validate Config.source f = none →
    memRead f i 1 ≠ [v] →
    validate Config.source (memWrite f i [v]) =
      if i = 0 then some .badStartByte
      else if i = 1 then some .badCommandEcho
      else some .checksumMismatch

/-- R116 (d), R229: a change of bytes 2 to 8 that keeps their sum modulo 256 is not detected. -/
def Obligations.CompensatingChangesUndetected : Prop :=
  ∀ f g : Frame, validate Config.source f = none → g.b0 = f.b0 → g.b1 = f.b1 →
    (validate Config.source g = none ↔
      g.b2 + g.b3 + g.b4 + g.b5 + g.b6 + g.b7 + g.b8 =
        f.b2 + f.b3 + f.b4 + f.b5 + f.b6 + f.b7 + f.b8)

/-- R119 to R121: the three decoders as integers. -/
def Obligations.DecodersAreExact : Prop :=
  ∀ f : Frame,
    (decodePpm f).toNat = 256 * f.b2.toNat + f.b3.toNat ∧
    (decodeTemp Config.source f).toInt = (f.b4.toNat : Int) - 40 ∧
    decodeStatus Config.source f = (f.b5, f.b5 != 0x40#8)

/-- The layout of the 37-bit result word (10_state.md section 5): where each field stands, and that the
word holds the fields and nothing else. -/
def Obligations.ResultWordLayout : Prop :=
  (∀ r : Result,
    (packResult r).extractLsb' 0 3 = r.status ∧ (packResult r).getLsbD 3 = r.warn ∧
    (packResult r).extractLsb' 4 16 = r.ppm ∧ (packResult r).extractLsb' 20 9 = r.temp ∧
    (packResult r).extractLsb' 29 8 = r.stat ∧ unpackResult (packResult r) = r) ∧
  (∀ w : BitVec 37, packResult (unpackResult w) = w)

/-! ### The step -/

/-- A step runs the decoded instruction: when the next move is a word whose bytes decode to `i`, the step is
`exec i` on the state with that word used up. The moves to come (the script, then the cycle for ever), the agents'
free order of moves as data, are the model's choice (log entry 1). -/
def Obligations.StepRunsDecodedWord : Prop :=
  ∀ (s : State) (bytes : List Byte) (rest : List Move) (i : Instr),
    upcoming s = .word bytes :: rest → s.started = true → decode bytes = .ok i →
    step s = exec i { s with script := rest }

/-- Bytes that are no word of the opcode table are refused by name (93_implementation_defined.md U4): the
model's choice of a refusal (log entry 12). -/
def Obligations.StepRefusesUnknownWord : Prop :=
  ∀ (s : State) (bytes : List Byte) (rest : List Move) (r : Reject),
    upcoming s = .word bytes :: rest → s.started = true → decode bytes = .reject r →
    step s = .refused (.noSuchWord r)

/-- CORE's own steps in a run: the `core` move, the line RUN of R97 (CORE steps as long as one is enabled),
and a step with no move to come, in which CORE goes on alone: the model's choice (log entry 1). -/
def Obligations.StepRunsCore : Prop :=
  ∀ (s : State) (rest : List Move), s.started = true →
    (∀ a : Answers, upcoming s = .core a :: rest → a.returns = true →
      step s = .next (coreStep Config.source a { s with script := rest })) ∧
    (upcoming s = .run :: rest → coreEnabled s = true →
      step s = .next (coreStep Config.source {} { s with script := .run :: rest })) ∧
    (upcoming s = .run :: rest → coreEnabled s = false → step s = .next { s with script := rest }) ∧
    (upcoming s = [] → step s = .next (coreStep Config.source {} s))

/-- A transport call that never returns leaves CORE stuck in its step (93_implementation_defined.md U14):
a named fault is the model's form of that (log entry 9). -/
def Obligations.StuckTransportFaults : Prop :=
  ∀ (s : State) (a : Answers) (rest : List Move),
    upcoming s = .core a :: rest → s.started = true → coreEnabled s = true → a.returns = false →
    step s = .fault .transportStuck

/-- A block that was never reset has no meaning until `rst` (R213, 93_implementation_defined.md U16): a word,
H_TAKE, a tick, RUN, a CORE step and a step with no move to come are refused. The moves that touch the transport
alone, and `rst`, go on. Which moves the refusal takes in is the model's choice (log entry 5). -/
def Obligations.NeverResetIsRefused : Prop :=
  ∀ (s : State) (rest : List Move), s.started = false →
    (upcoming s = [] → step s = .refused .neverReset) ∧
    (∀ bytes, upcoming s = .word bytes :: rest → step s = .refused .neverReset) ∧
    (upcoming s = .take :: rest → step s = .refused .neverReset) ∧
    (upcoming s = .tick :: rest → step s = .refused .neverReset) ∧
    (upcoming s = .run :: rest → step s = .refused .neverReset) ∧
    (∀ a, upcoming s = .core a :: rest → step s = .refused .neverReset) ∧
    (∀ bytes, upcoming s = .line bytes :: rest → ∃ t, step s = .next t ∧ t.started = false) ∧
    (∀ u, upcoming s = .other u :: rest → ∃ t, step s = .next t ∧ t.started = false) ∧
    (∀ q, upcoming s = .corrupt q :: rest → ∃ t, step s = .next t ∧ t.started = false) ∧
    (upcoming s = .rst :: rest → ∃ t, step s = .next t ∧ t.started = true)

/-! ### Host operations (42_command_api.md) -/

/-- R161: the accepting step of RDCONC, the result of a valid reply, and the errors, each with every data
field 0. -/
def Obligations.RdconcOperation : Prop :=
  (∀ en : Bool, decode [hostWord 0#2 en] = .ok (.rdconc en)) ∧
  (∀ (en : Bool) (s : State), s.st = .idle →
    exec (.rdconc en) s = .next { s with op := 0#2, tx := readRequest, acc := 0x87#8, st := .flushing }) ∧
  (∀ (s : State) (f : Frame) (rest : List Byte), s.st = .reading → s.op = 0#2 →
    s.rxq = frameBytes f ++ rest → validate Config.source f = none →
    coreStep Config.source {} s =
      { s with rxq := rest, rx := f, acc := cksumAcc [f.b1, f.b2, f.b3, f.b4, f.b5, f.b6, f.b7],
               res := ⟨0#3, f.b5 != 0x40#8, f.b2 ++ f.b3, 0#9, 0#8⟩, st := .done }) ∧
  (∀ (s : State) (a : Answers), s.op = 0#2 → isTerminal s.st = false →
    isTerminal (coreStep Config.source a s).st = true →
    (coreStep Config.source a s).res.status = 0 ∨
    ∃ e ∈ [ErrorKind.noResponse, .shortRead, .badStartByte, .badCommandEcho, .checksumMismatch],
      (coreStep Config.source a s).res = ⟨errorCode e, false, 0#16, 0#9, 0#8⟩)

/-- R162: the accepting step of RDFULL, the result of a valid reply (no warning, the raw status), and the
same five errors. -/
def Obligations.RdfullOperation : Prop :=
  (∀ en : Bool, decode [hostWord 1#2 en] = .ok (.rdfull en)) ∧
  (∀ (en : Bool) (s : State), s.st = .idle →
    exec (.rdfull en) s = .next { s with op := 1#2, tx := readRequest, acc := 0x87#8, st := .flushing }) ∧
  (∀ (s : State) (f : Frame) (rest : List Byte), s.st = .reading → s.op = 1#2 →
    s.rxq = frameBytes f ++ rest → validate Config.source f = none →
    coreStep Config.source {} s =
      { s with rxq := rest, rx := f, acc := cksumAcc [f.b1, f.b2, f.b3, f.b4, f.b5, f.b6, f.b7],
               res := ⟨0#3, false, f.b2 ++ f.b3, f.b4.zeroExtend 9 - 40#9, f.b5⟩, st := .done }) ∧
  (∀ (s : State) (a : Answers), s.op = 1#2 → isTerminal s.st = false →
    isTerminal (coreStep Config.source a s).st = true →
    (coreStep Config.source a s).res.status = 0 ∨
    ∃ e ∈ [ErrorKind.noResponse, .shortRead, .badStartByte, .badCommandEcho, .checksumMismatch],
      (coreStep Config.source a s).res = ⟨errorCode e, false, 0#16, 0#9, 0#8⟩)

/-- R163: SETABC builds its request, goes to Sending without Flushing, and its one further step sends the
request and ends with OK, whatever the transport answers; it makes no T_AVAIL and no T_READ, and `rxq` is
left as it was. -/
def Obligations.SetabcOperation : Prop :=
  (∀ en : Bool, decode [hostWord 2#2 en] = .ok (.setabc en)) ∧
  (∀ s : State, s.st = .idle →
    exec (.setabc true) s = .next { s with op := 2#2, tx := abcOnRequest, acc := 0x1A#8, st := .sending } ∧
    exec (.setabc false) s = .next { s with op := 2#2, tx := abcOffRequest, acc := 0x7A#8, st := .sending }) ∧
  (∀ s : State, s.st = .sending → s.op = 2#2 →
    coreStep Config.source {} s =
      { s with wire := s.wire ++ s.txpend ++ frameBytes s.tx, txpend := [], elapsed := 0#16, dly := 0#8,
               res := ⟨0#3, false, 0#16, 0#9, 0#8⟩, st := .done }) ∧
  (∀ (s : State) (a : Answers), s.st = .sending → s.op = 2#2 →
    (coreStep Config.source a s).st = .done ∧ (coreStep Config.source a s).res = ⟨0#3, false, 0#16, 0#9, 0#8⟩ ∧
    (coreStep Config.source a s).rxq = s.rxq ∧
    ∃ k n m, coreTxns Config.source a s = [.write (frameBytes s.tx) k n, .flush m])

/-- R165: the reserved code ends at once with IllegalOp; nothing else changes and no transaction is made;
the H_TAKE that follows returns status 7 and ends the operation. -/
def Obligations.ReservedOperation : Prop :=
  ∀ (en : Bool) (s : State), s.st = .idle →
    decode [hostWord 3#2 en] = .ok (.rsvd en) ∧ (∀ a : Answers, coreTxns Config.source a s = []) ∧
    exec (.rsvd en) s = .next { s with op := 3#2, res := ⟨7#3, false, 0#16, 0#9, 0#8⟩, st := .done } ∧
    takeResult { s with op := 3#2, res := ⟨7#3, false, 0#16, 0#9, 0#8⟩, st := .done } =
      { s with op := 3#2, res := ⟨7#3, false, 0#16, 0#9, 0#8⟩, st := .idle,
               taken := s.taken ++ [⟨7#3, false, 0#16, 0#9, 0#8⟩] } ∧
    packResult ⟨7#3, false, 0#16, 0#9, 0#8⟩ = 0x0000000007

/-- R160: H_CMD is enabled exactly in Idle. An accepted command writes `op`, builds its request into `tx`
(the reserved code builds none) and sets `st`; one offered in any other state has no effect and leaves
nothing behind. -/
def Obligations.HostWordAcceptedOnlyInIdle : Prop :=
  ∀ (en : Bool) (s : State) (i : Instr) (code : BitVec 2) (request : Frame) (st : Fsm),
    (i, code, request, st) ∈
      [(Instr.rdconc en, 0#2, readRequest, Fsm.flushing),
       (.rdfull en, 1#2, readRequest, .flushing),
       (.setabc en, 2#2, if en then abcOnRequest else abcOffRequest, .sending),
       (.rsvd en, 3#2, s.tx, .done)] →
    (s.st ≠ .idle → exec i s = .next s ∧ cmdReady s = false) ∧
    (s.st = .idle → ∃ t, exec i s = .next t ∧ t.op = code ∧ t.tx = request ∧ t.st = st ∧
      t.rx = s.rx ∧ t.elapsed = s.elapsed ∧ t.dly = s.dly ∧ t.rxq = s.rxq ∧ t.txpend = s.txpend ∧
      t.wire = s.wire ∧ t.taken = s.taken ∧ (code ≠ 3#2 → t.res = s.res))

/-- R95: `cmd_en` is a don't-care for RDCONC, RDFULL and the reserved code, and the reserved code ends at
once in Done with IllegalOp and no transport activity. -/
def Obligations.EnableBitIgnored : Prop :=
  ∀ s : State,
    exec (.rdconc true) s = exec (.rdconc false) s ∧
    exec (.rdfull true) s = exec (.rdfull false) s ∧
    exec (.rsvd true) s = exec (.rsvd false) s ∧
    (s.st = .idle → ∃ t, exec (.rsvd false) s = .next t ∧ t.st = .done ∧
      t.res.status = errorCode .illegalOp ∧
      t.rxq = s.rxq ∧ t.txpend = s.txpend ∧ t.wire = s.wire ∧ coreTxns Config.source {} s = [])

/-- No abort (R148): between acceptance and the terminal state no move of HOST changes anything. -/
def Obligations.NoAbort : Prop :=
  ∀ (s : State) (m : Move) (rest : List Move),
    upcoming s = m :: rest → s.started = true → busy s = true → isTerminal s.st = false →
    (m = .take ∨ ∃ op en, m = .word [hostWord op en]) →
    step s = .next { s with script := rest }

/-- R168: H_TAKE returns `res`, puts `st` back to Idle and writes nothing else; it is enabled exactly in
the terminal states; and nothing reaches HOST in any other way. -/
def Obligations.TakeReturnsResult : Prop :=
  (∀ (s : State) (rest : List Move), upcoming s = .take :: rest → s.started = true →
    (s.st = .done ∨ s.st = .timedOut ∨ s.st = .shortRd →
      step s = .next { s with script := rest, taken := s.taken ++ [s.res], st := .idle } ∧
      resValid { s with script := rest, taken := s.taken ++ [s.res], st := .idle } = false) ∧
    (¬(s.st = .done ∨ s.st = .timedOut ∨ s.st = .shortRd) → step s = .next { s with script := rest })) ∧
  (∀ s t : State, step s = .next t → t.taken ≠ s.taken →
    (upcoming s).head? = some .take ∧ resValid s = true ∧ t.taken = s.taken ++ [s.res])

/-! ### Words of the wire (30_encoding.md) -/

/-- A request frame crosses to the transport in the SEND step (R81, R135): for every request row, in
Sending with that frame in `tx`, the next state is the one R135 gives. That a wire word's meaning is the
step in which it crosses is the model's choice (log entry 6). -/
def Obligations.RequestFrameIsSent : Prop :=
  (∀ s : State, s.st = .sending → s.tx = readRequest → exec .reqReadCo2 s = .next (afterSend s)) ∧
  (∀ s : State, s.st = .sending → s.tx = abcOnRequest → exec .reqAbcOn s = .next (afterSend s)) ∧
  (∀ s : State, s.st = .sending → s.tx = abcOffRequest → exec .reqAbcOff s = .next (afterSend s)) ∧
  (∀ (a c d0 d1 d2 d3 d4 k : Byte) (s : State), s.st = .sending →
    s.tx = ⟨0xFF#8, a, c, d0, d1, d2, d3, d4, k⟩ →
    exec (.req a c d0 d1 d2 d3 d4 k) s = .next (afterSend s))

/-- SEND is the only step that writes to the transport (R136): outside Sending, or with another frame in
`tx`, a request frame crosses nothing and the state stays (the model's choice, log entry 6). -/
def Obligations.RequestFrameNotSentElsewhere : Prop :=
  (∀ s : State, s.st ≠ .sending ∨ s.tx ≠ readRequest → exec .reqReadCo2 s = .next s) ∧
  (∀ s : State, s.st ≠ .sending ∨ s.tx ≠ abcOnRequest → exec .reqAbcOn s = .next s) ∧
  (∀ s : State, s.st ≠ .sending ∨ s.tx ≠ abcOffRequest → exec .reqAbcOff s = .next s) ∧
  (∀ (a c d0 d1 d2 d3 d4 k : Byte) (s : State),
    s.st ≠ .sending ∨ s.tx ≠ ⟨0xFF#8, a, c, d0, d1, d2, d3, d4, k⟩ →
    exec (.req a c d0 d1 d2 d3 d4 k) s = .next s)

/-- The two command codes CORE sends cross as byte 2 of a request in the SEND step (R86, R87); the model's
choice of a code's meaning (log entry 6). -/
def Obligations.SentCodesCross : Prop :=
  ∀ s : State, s.st = .sending →
    (s.tx.b2 = 0x86#8 → exec .cmdReadCo2 s = .next (afterSend s)) ∧
    (s.tx.b2 = 0x79#8 → exec .cmdSetAbc s = .next (afterSend s))

/-- A command code crosses as byte 1 of a reply in the READ step (R83, R93): 0x86 is the accepted echo, and
a reply that echoes any of the other four is rejected with BadCommandEcho. The model's choice of a
code's meaning (log entry 6). -/
def Obligations.EchoedCodesCross : Prop :=
  ∀ (s : State) (f : Frame) (rest : List Byte), s.st = .reading → s.rxq = frameBytes f ++ rest →
    f.b0 = 0xFF#8 →
    (f.b1 = 0x86#8 → exec .cmdReadCo2 s = .next (afterRead f rest s)) ∧
    (∀ (i : Instr) (code : Byte),
      (i, code) ∈ [(Instr.cmdSetAbc, 0x79), (.cmdCalZero, 0x87), (.cmdCalSpan, 0x88),
        (.cmdSetRange, 0x99)] → f.b1 = code →
      exec i s = .next
        { s with rxq := rest, rx := f, acc := validateAcc Config.source f s.acc,
                 res := ⟨3#3, false, 0#16, 0#9, 0#8⟩, st := .done })

/-- Wherever CORE is not in Reading with a reply of nine bytes at the head of `rxq` that echoes it (byte 0
START_BYTE, byte 1 the code), a code that is never sent has no step and is refused by name (R87,
93_implementation_defined.md U3; log entry 6). -/
def Obligations.NeverSentCodesRefused : Prop :=
  ∀ (s : State) (i : Instr) (code : Byte),
    (i, code) ∈ [(Instr.cmdCalZero, 0x87#8), (.cmdCalSpan, 0x88#8), (.cmdSetRange, 0x99#8)] →
    s.st ≠ .reading ∨ s.rxq.length < 9 ∨ s.rxq[0]? ≠ some 0xFF#8 ∨ s.rxq[1]? ≠ some code →
    exec i s = .refused (.neverSent code)

/-- Where a code that CORE sends crosses no interface (not in Sending with it in `tx[2]`, not in Reading with
a reply at the head of `rxq` that echoes it), its row changes nothing: the model's choice of a code's
meaning (log entry 6). -/
def Obligations.SentCodesChangeNothingElsewhere : Prop :=
  ∀ (s : State) (i : Instr) (code : Byte),
    (i, code) ∈ [(Instr.cmdReadCo2, 0x86#8), (.cmdSetAbc, 0x79#8)] →
    s.st ≠ .sending ∨ s.tx.b2 ≠ code →
    s.st ≠ .reading ∨ s.rxq.length < 9 ∨ s.rxq[0]? ≠ some 0xFF#8 ∨ s.rxq[1]? ≠ some code →
    exec i s = .next s

/-- A reply frame comes in (R61, R83): unless CORE is about to read these nine bytes, they join the tail of
the receive queue and nothing else changes. The model's choice of the word's meaning (log entry 6). -/
def Obligations.ReplyFrameIsDelivered : Prop :=
  ∀ (hh ll tt ss xx yy kk : Byte) (s : State),
    s.st ≠ .reading ∨ s.rxq.take 9 ≠ [0xFF#8, 0x86#8, hh, ll, tt, ss, xx, yy, kk] →
    exec (.rspReadCo2 hh ll tt ss xx yy kk) s =
      .next { s with rxq := s.rxq ++ [0xFF#8, 0x86#8, hh, ll, tt, ss, xx, yy, kk] }

/-- A reply frame at the head of the queue in Reading is read whole, validated and decoded (R143, R144): OK
with the result of the operation when its checksum is right, else ChecksumMismatch. The model's choice
of the word's meaning (log entry 6). -/
def Obligations.ReplyFrameIsRead : Prop :=
  ∀ (hh ll tt ss xx yy kk : Byte) (rest : List Byte) (s : State), s.st = .reading →
    s.rxq = [0xFF#8, 0x86#8, hh, ll, tt, ss, xx, yy, kk] ++ rest →
    exec (.rspReadCo2 hh ll tt ss xx yy kk) s = .next
      { s with
        rxq := rest
        rx := ⟨0xFF#8, 0x86#8, hh, ll, tt, ss, xx, yy, kk⟩
        acc := 0x86#8 + hh + ll + tt + ss + xx + yy
        res :=
          if 0x86#8 + hh + ll + tt + ss + xx + yy + kk ≠ 0#8 then ⟨4#3, false, 0#16, 0#9, 0#8⟩
          else if s.op = 0#2 then ⟨0#3, ss != 0x40#8, hh ++ ll, 0#9, 0#8⟩
          else ⟨0#3, false, hh ++ ll, tt.zeroExtend 9 - 40#9, ss⟩
        st := .done }

/-! ### CORE's steps (41_exchange.md) -/

/-- R132: FLUSH. An empty answer goes to Sending; any other drops the byte read, if any, and stays; a queue
of `m` bytes that does not grow takes `m + 1` steps. -/
def Obligations.FlushDrains : Prop :=
  ∀ s : State, s.st = .flushing →
    (∀ a : Answers, tAvail a s = 0 → coreStep Config.source a s = { s with st := .sending }) ∧
    (∀ a : Answers, tAvail a s ≠ 0 →
      coreStep Config.source a s = { s with rxq := s.rxq.drop (readCount a 1 s) }) ∧
    (∀ k : Nat, k ≤ s.rxq.length →
      coreSteps Config.source k s = { s with rxq := s.rxq.drop k }) ∧
    coreSteps Config.source (s.rxq.length + 1) s = { s with rxq := [], st := .sending }

/-- R133: Flushing has no bound. If LINE appends at least one byte after every FLUSH step, CORE is still in
Flushing after any number of rounds, with nothing sent and no time counted. -/
def Obligations.DrainHasNoBound : Prop :=
  ∀ (feeds : List (List Byte)) (s : State), s.st = .flushing → s.started = true → s.rxq ≠ [] →
    (∀ feed ∈ feeds, feed ≠ []) →
    ∃ t, Host.Core.run Sys2Proof.core (2 * feeds.length) { s with script := feedRounds feeds } = .next t ∧
      t.st = .flushing ∧ t.rxq ≠ [] ∧ t.wire = s.wire ∧ t.elapsed = s.elapsed ∧ t.script = []

/-- R222, R133: the endless drain. Where FLUSH steps and bytes from LINE alternate for ever (the cycle of the
moves to come, the model's form of an endless run, log entry 1), CORE is in Flushing after every number of
steps: the operation never ends, no command is accepted, nothing is sent and no time is counted. -/
def Obligations.EndlessDrain : Prop :=
  ∀ (feeds : List (List Byte)) (s : State), feeds ≠ [] → (∀ feed ∈ feeds, feed ≠ []) →
    s.st = .flushing → s.started = true → s.rxq ≠ [] → s.script = [] → s.cycle = feedRounds feeds →
    ∀ n : Nat, ∃ t, Host.Core.run Sys2Proof.core n s = .next t ∧
      t.st = .flushing ∧ cmdReady t = false ∧ t.op = s.op ∧ t.tx = s.tx ∧ t.wire = s.wire ∧
      t.txpend = s.txpend ∧ t.elapsed = s.elapsed ∧ t.taken = s.taken

/-- R135: SEND writes and flushes the nine bytes of `tx` in one step and clears the counters; SETABC ends
with OK, the read operations go on to Waiting. Whatever the transport accepts, CORE does the same. -/
def Obligations.SendWritesOneRequest : Prop :=
  ∀ s : State, s.st = .sending →
    coreStep Config.source {} s = afterSend s ∧
    (∀ a : Answers, coreStep Config.source a s =
      { afterSend s with
        wire := (coreStep Config.source a s).wire
        txpend := (coreStep Config.source a s).txpend } ∧
      ∃ k n m, coreTxns Config.source a s = [.write (frameBytes s.tx) k n, .flush m])

/-- R138: POLL tests for data first, then the budget, then loads another delay; for any budget and any
interval, and whatever count the transport answers. -/
def Obligations.PollDecides : Prop :=
  ∀ (c : Config) (a : Answers) (s : State), s.st = .waiting → s.dly = 0#8 →
    (0 < tAvail a s → coreStep c a s = { s with st := .reading }) ∧
    (tAvail a s = 0 → c.timeoutBudget ≤ s.elapsed.toNat →
      coreStep c a s = { s with res := ⟨1#3, false, 0#16, 0#9, 0#8⟩, st := .timedOut }) ∧
    (tAvail a s = 0 → s.elapsed.toNat < c.timeoutBudget →
      coreStep c a s = { s with dly := BitVec.ofNat 8 c.pollInterval })

/-- R140: a tick in a delay counts `dly` down and `elapsed` up by one, with no transaction; `dly` ticks end
the delay and POLL is enabled; until then CORE takes no step. A tick anywhere else changes nothing
(41_exchange.md section 4). The step that takes a tick off the moves to come does this once (60_exceptions.md
section 6). -/
def Obligations.TickCounts : Prop :=
  (∀ s : State, s.st = .waiting → s.dly ≠ 0#8 →
    tickStep s = { s with dly := s.dly - 1#8, elapsed := s.elapsed + 1#16 } ∧
    ∀ a : Answers, coreTxns Config.source a s = [] ∧ coreStep Config.source a s = s) ∧
  (∀ s : State, s.st = .waiting →
    ticks s.dly.toNat s = { s with dly := 0#8, elapsed := s.elapsed + s.dly.zeroExtend 16 } ∧
    coreEnabled (ticks s.dly.toNat s) = true) ∧
  (∀ s : State, s.st ≠ .waiting ∨ s.dly = 0#8 → tickStep s = s) ∧
  (∀ (s : State) (rest : List Move), upcoming s = .tick :: rest → s.started = true →
    step s = .next { tickStep s with script := rest })

/-- R227: the stopped clock. In a delay with no move to come (so no tick: log entry 1) CORE never polls again
and never times out: every number of steps leaves the state as it was. With LINE's bytes coming round for
ever and still no tick, CORE is in the same delay after every number of steps. -/
def Obligations.StoppedClockWaitsForEver : Prop :=
  ∀ s : State, s.st = .waiting → s.dly ≠ 0#8 → s.started = true →
    (upcoming s = [] → ∀ n : Nat, Host.Core.run Sys2Proof.core n s = .next s) ∧
    (∀ feeds : List (List Byte), s.script = [] → s.cycle = feedRounds feeds →
      ∀ n : Nat, ∃ t, Host.Core.run Sys2Proof.core n s = .next t ∧
        t.st = .waiting ∧ t.dly = s.dly ∧ t.elapsed = s.elapsed ∧ t.wire = s.wire)

/-- R143, R144: a READ that gets nine bytes takes them off the queue into `rx`, validates them, and ends in
Done with the verdict or the result of the operation. -/
def Obligations.ReadWholeReply : Prop :=
  ∀ (s : State) (f : Frame) (rest : List Byte), s.st = .reading → s.rxq = frameBytes f ++ rest →
    coreStep Config.source {} s = afterRead f rest s

/-- R145: a READ that gets fewer than nine bytes, for whatever reason, ends in ShortRd with ShortRead; the
bytes are consumed into the front of `rx` and nothing is validated or decoded. -/
def Obligations.ShortReadIsAnError : Prop :=
  ∀ (s : State) (a : Answers), s.st = .reading → readCount a 9 s < 9 →
    coreStep Config.source a s =
      afterShortRead (s.rxq.take (readCount a 9 s)) (s.rxq.drop (readCount a 9 s)) s

/-- R181: raising an error writes its code with every data field 0 and its terminal state, and no other
register, queue or record. -/
def Obligations.RaiseWritesResultOnly : Prop :=
  ∀ (e : ErrorKind) (s : State),
    raise e s = { s with
      res := ⟨errorCode e, false, 0#16, 0#9, 0#8⟩
      st := if e = .noResponse then .timedOut else if e = .shortRead then .shortRd else .done } ∧
    readStatus (errorCode e) = some (some e)

/-- R131: the complete transition relation. From every state of the invariant, whatever move is taken and
whatever the transport answers, a step that changes `st` is a row of the table with its condition. The
premise rules out Sending with the reserved `op` (R35; InvariantKeptByEveryStep, InvariantHoldsAtReset). -/
def Obligations.TransitionRelationComplete : Prop :=
  ∀ s t : State, MachineInv s → step s = .next t → t.st ≠ s.st → Transition s (upcoming s).head? t

/-- The terminal states (41_exchange.md section 6): CORE has no step and makes no transaction, and holds
every register until H_TAKE; only `rst` does otherwise. -/
def Obligations.TerminalStatesHold : Prop :=
  ∀ s t : State, step s = .next t → isTerminal s.st = true →
    (upcoming s).head? ≠ some .take → (upcoming s).head? ≠ some .rst →
    coreEnabled s = false ∧ (∀ a : Answers, coreTxns Config.source a s = []) ∧
    t.st = s.st ∧ t.op = s.op ∧ t.tx = s.tx ∧ t.rx = s.rx ∧ t.acc = s.acc ∧
    t.elapsed = s.elapsed ∧ t.dly = s.dly ∧ t.res = s.res ∧ t.taken = s.taken

/-- Under the contract a step makes the wire grow in SEND alone, by what was pending and the nine bytes of
`tx` (41_exchange.md section 3). -/
def Obligations.WireGrowsOnlyInSend : Prop :=
  ∀ s t : State, step s = .next t → KeepsContract s (upcoming s).head? →
    (∀ u, (upcoming s).head? ≠ some (.other u)) →
    (s.st = .sending ∧ t.st ≠ .sending ∧ t.wire = s.wire ++ s.txpend ++ frameBytes s.tx ∧
      t.txpend = []) ∨
    (t.wire = s.wire ∧ t.txpend = s.txpend)

/-- R65 and R34: CORE touches the transport only through the transactions of its step, in their order. -/
def Obligations.TransactionsAccountForQueues : Prop :=
  ∀ (a : Answers) (s : State),
    let t := coreStep Config.source a s
    let q := (coreTxns Config.source a s).foldl applyTxn s
    t.rxq = q.rxq ∧ t.txpend = q.txpend ∧ t.wire = q.wire ∧ t.taken = s.taken ∧ t.script = s.script ∧
    t.cycle = s.cycle ∧
    (s.op = 2#2 → s.st = .sending → ∃ k n m, coreTxns Config.source a s = [.write (frameBytes s.tx) k n, .flush m])

/-- R142: with a silent LINE the polls come at `elapsed = 0, P, 2P, …`, the last at the first multiple of
`P` that reaches the budget, where NoResponse is raised; a byte that is there at any of those polls
is taken. For every configuration that meets R7. -/
def Obligations.WaitingIsBounded : Prop :=
  ∀ (c : Config) (s : State), c.valid = true → s.st = .waiting → s.dly = 0#8 → s.elapsed = 0#16 →
    s.rxq = [] →
    let P := c.pollInterval
    let last := (c.timeoutBudget + P - 1) / P
    (∀ j : Nat, j ≤ last →
      delayRounds c j s = { s with elapsed := BitVec.ofNat 16 (P * j) } ∧
      ∀ q : List Byte, q ≠ [] →
        (coreStep c {} { delayRounds c j s with rxq := q }).st = .reading) ∧
    coreStep c {} (delayRounds c last s) =
      { s with elapsed := BitVec.ofNat 16 (P * last), res := ⟨1#3, false, 0#16, 0#9, 0#8⟩, st := .timedOut }

/-- An operation ends (R130, R142, R169): from any state of the invariant, with CLOCK ticking, the contract
kept and LINE silent, a terminal state comes within a bounded number of rounds. -/
def Obligations.OperationEndsWhenLineIsSilent : Prop :=
  ∀ s : State, MachineInv s → s.started = true → busy s = true →
    ∃ n t, n ≤ s.rxq.length + 510 ∧
      Host.Core.run Sys2Proof.core (2 * n) { s with script := quietRounds n } = .next t ∧
      isTerminal t.st = true

/-! ### Invariants and reset (10_state.md, 70_reset_and_hazards.md) -/

/-- R35 with the table of R180: every step, whatever the move and whatever the transport answers, keeps the
invariant. -/
def Obligations.InvariantKeptByEveryStep : Prop :=
  ∀ s t : State, MachineInv s → step s = .next t → MachineInv t

/-- The reset state meets the invariant. -/
def Obligations.InvariantHoldsAtReset : Prop := MachineInv State.reset

/-- R20, R210: the registers right after reset. -/
def Obligations.ResetValues : Prop :=
  State.reset.st = .idle ∧ State.reset.op = 0 ∧
  State.reset.tx = ⟨0, 0, 0, 0, 0, 0, 0, 0, 0⟩ ∧ State.reset.rx = ⟨0, 0, 0, 0, 0, 0, 0, 0, 0⟩ ∧
  State.reset.acc = 0 ∧ State.reset.elapsed = 0 ∧ State.reset.dly = 0 ∧
  packResult State.reset.res = 0 ∧ busy State.reset = false ∧ resValid State.reset = false

/-- R210 and R212: `rst` in any state, never-reset ones included, gives every register its reset value and
leaves the transport's queues and HOST's copies as they are. -/
def Obligations.ResetFromAnyState : Prop :=
  ∀ (s : State) (rest : List Move), upcoming s = .rst :: rest →
    step s = .next { State.reset with
      rxq := s.rxq, txpend := s.txpend, wire := s.wire, taken := s.taken,
      script := rest, cycle := s.cycle }

/-- R61: LINE's move, possible in every state, appends its bytes to `rxq` and changes nothing else. -/
def Obligations.LineOnlyAppends : Prop :=
  ∀ (s : State) (bytes : List Byte) (rest : List Move), upcoming s = .line bytes :: rest →
    step s = .next { s with script := rest, rxq := s.rxq ++ bytes }

/-- Another user of the transport (R72, R228; its moves are the model's choice, log entry 9): its reads take bytes from the head of `rxq`, its writes join
the pending output, its flush puts the pending output on the wire; no register of CORE changes. -/
def Obligations.OtherUserTouchesQueuesOnly : Prop :=
  ∀ (s : State) (rest : List Move),
    (∀ n, upcoming s = .other (.read n) :: rest →
      step s = .next { s with script := rest, rxq := s.rxq.drop n }) ∧
    (∀ v, upcoming s = .other (.write v) :: rest →
      step s = .next { s with script := rest, txpend := s.txpend ++ v }) ∧
    (upcoming s = .other .flush :: rest →
      step s = .next { s with script := rest, wire := s.wire ++ s.txpend, txpend := [] }) ∧
    (upcoming s = .other .avail :: rest → step s = .next { s with script := rest })

/-- R33: the outputs `busy` and `res_valid` are functions of `st`; H_CMD is enabled (a host word has an
effect) exactly when `busy = 0`, H_TAKE exactly when `res_valid = 1`, so never both. -/
def Obligations.OutputsAreFunctionsOfState : Prop :=
  ∀ s : State,
    (busy s = true ↔ s.st ≠ .idle) ∧
    (resValid s = true ↔ s.st = .done ∨ s.st = .timedOut ∨ s.st = .shortRd) ∧
    (∀ (en : Bool) (i : Instr), i ∈ [.rdconc en, .rdfull en, .setabc en, .rsvd en] →
      (exec i s ≠ .next s ↔ busy s = false)) ∧
    (takeResult s ≠ s ↔ resValid s = true) ∧
    cmdReady s = !busy s ∧ ¬(cmdReady s = true ∧ resValid s = true)

/-- R24, R26, R167: what no later step can show. Two states that agree on everything but `rx`, `acc`, the
result outside the terminal states, the counters outside Waiting, a request already sent and the
operation once finished take steps that no agent can tell apart, and agree again. -/
def Obligations.HiddenRegistersNeverMatter : Prop :=
  ∀ s t : State, visible s = visible t → SameOutcome (step s) (step t)
end

