-- ==== Sys2Proof/Laws/State.lean ====
section
/-! SUPPORT. One lemma per field per setter of State: what a write of one field leaves every field at. -/

namespace Sys2Proof.Machine

section
variable (s : State) (v : Fsm)
@[simp] theorem State.setSt_st : (s.setSt v).st = v := rfl
@[simp] theorem State.setSt_op : (s.setSt v).op = s.op := rfl
@[simp] theorem State.setSt_tx : (s.setSt v).tx = s.tx := rfl
@[simp] theorem State.setSt_rx : (s.setSt v).rx = s.rx := rfl
@[simp] theorem State.setSt_acc : (s.setSt v).acc = s.acc := rfl
@[simp] theorem State.setSt_elapsed : (s.setSt v).elapsed = s.elapsed := rfl
@[simp] theorem State.setSt_dly : (s.setSt v).dly = s.dly := rfl
@[simp] theorem State.setSt_res : (s.setSt v).res = s.res := rfl
@[simp] theorem State.setSt_rxq : (s.setSt v).rxq = s.rxq := rfl
@[simp] theorem State.setSt_txpend : (s.setSt v).txpend = s.txpend := rfl
@[simp] theorem State.setSt_wire : (s.setSt v).wire = s.wire := rfl
@[simp] theorem State.setSt_taken : (s.setSt v).taken = s.taken := rfl
@[simp] theorem State.setSt_started : (s.setSt v).started = s.started := rfl
@[simp] theorem State.setSt_script : (s.setSt v).script = s.script := rfl
@[simp] theorem State.setSt_cycle : (s.setSt v).cycle = s.cycle := rfl
end

section
variable (s : State) (v : BitVec 2)
@[simp] theorem State.setOp_st : (s.setOp v).st = s.st := rfl
@[simp] theorem State.setOp_op : (s.setOp v).op = v := rfl
@[simp] theorem State.setOp_tx : (s.setOp v).tx = s.tx := rfl
@[simp] theorem State.setOp_rx : (s.setOp v).rx = s.rx := rfl
@[simp] theorem State.setOp_acc : (s.setOp v).acc = s.acc := rfl
@[simp] theorem State.setOp_elapsed : (s.setOp v).elapsed = s.elapsed := rfl
@[simp] theorem State.setOp_dly : (s.setOp v).dly = s.dly := rfl
@[simp] theorem State.setOp_res : (s.setOp v).res = s.res := rfl
@[simp] theorem State.setOp_rxq : (s.setOp v).rxq = s.rxq := rfl
@[simp] theorem State.setOp_txpend : (s.setOp v).txpend = s.txpend := rfl
@[simp] theorem State.setOp_wire : (s.setOp v).wire = s.wire := rfl
@[simp] theorem State.setOp_taken : (s.setOp v).taken = s.taken := rfl
@[simp] theorem State.setOp_started : (s.setOp v).started = s.started := rfl
@[simp] theorem State.setOp_script : (s.setOp v).script = s.script := rfl
@[simp] theorem State.setOp_cycle : (s.setOp v).cycle = s.cycle := rfl
end

section
variable (s : State) (v : Frame)
@[simp] theorem State.setTx_st : (s.setTx v).st = s.st := rfl
@[simp] theorem State.setTx_op : (s.setTx v).op = s.op := rfl
@[simp] theorem State.setTx_tx : (s.setTx v).tx = v := rfl
@[simp] theorem State.setTx_rx : (s.setTx v).rx = s.rx := rfl
@[simp] theorem State.setTx_acc : (s.setTx v).acc = s.acc := rfl
@[simp] theorem State.setTx_elapsed : (s.setTx v).elapsed = s.elapsed := rfl
@[simp] theorem State.setTx_dly : (s.setTx v).dly = s.dly := rfl
@[simp] theorem State.setTx_res : (s.setTx v).res = s.res := rfl
@[simp] theorem State.setTx_rxq : (s.setTx v).rxq = s.rxq := rfl
@[simp] theorem State.setTx_txpend : (s.setTx v).txpend = s.txpend := rfl
@[simp] theorem State.setTx_wire : (s.setTx v).wire = s.wire := rfl
@[simp] theorem State.setTx_taken : (s.setTx v).taken = s.taken := rfl
@[simp] theorem State.setTx_started : (s.setTx v).started = s.started := rfl
@[simp] theorem State.setTx_script : (s.setTx v).script = s.script := rfl
@[simp] theorem State.setTx_cycle : (s.setTx v).cycle = s.cycle := rfl
end

section
variable (s : State) (v : Frame)
@[simp] theorem State.setRx_st : (s.setRx v).st = s.st := rfl
@[simp] theorem State.setRx_op : (s.setRx v).op = s.op := rfl
@[simp] theorem State.setRx_tx : (s.setRx v).tx = s.tx := rfl
@[simp] theorem State.setRx_rx : (s.setRx v).rx = v := rfl
@[simp] theorem State.setRx_acc : (s.setRx v).acc = s.acc := rfl
@[simp] theorem State.setRx_elapsed : (s.setRx v).elapsed = s.elapsed := rfl
@[simp] theorem State.setRx_dly : (s.setRx v).dly = s.dly := rfl
@[simp] theorem State.setRx_res : (s.setRx v).res = s.res := rfl
@[simp] theorem State.setRx_rxq : (s.setRx v).rxq = s.rxq := rfl
@[simp] theorem State.setRx_txpend : (s.setRx v).txpend = s.txpend := rfl
@[simp] theorem State.setRx_wire : (s.setRx v).wire = s.wire := rfl
@[simp] theorem State.setRx_taken : (s.setRx v).taken = s.taken := rfl
@[simp] theorem State.setRx_started : (s.setRx v).started = s.started := rfl
@[simp] theorem State.setRx_script : (s.setRx v).script = s.script := rfl
@[simp] theorem State.setRx_cycle : (s.setRx v).cycle = s.cycle := rfl
end

section
variable (s : State) (v : Byte)
@[simp] theorem State.setAcc_st : (s.setAcc v).st = s.st := rfl
@[simp] theorem State.setAcc_op : (s.setAcc v).op = s.op := rfl
@[simp] theorem State.setAcc_tx : (s.setAcc v).tx = s.tx := rfl
@[simp] theorem State.setAcc_rx : (s.setAcc v).rx = s.rx := rfl
@[simp] theorem State.setAcc_acc : (s.setAcc v).acc = v := rfl
@[simp] theorem State.setAcc_elapsed : (s.setAcc v).elapsed = s.elapsed := rfl
@[simp] theorem State.setAcc_dly : (s.setAcc v).dly = s.dly := rfl
@[simp] theorem State.setAcc_res : (s.setAcc v).res = s.res := rfl
@[simp] theorem State.setAcc_rxq : (s.setAcc v).rxq = s.rxq := rfl
@[simp] theorem State.setAcc_txpend : (s.setAcc v).txpend = s.txpend := rfl
@[simp] theorem State.setAcc_wire : (s.setAcc v).wire = s.wire := rfl
@[simp] theorem State.setAcc_taken : (s.setAcc v).taken = s.taken := rfl
@[simp] theorem State.setAcc_started : (s.setAcc v).started = s.started := rfl
@[simp] theorem State.setAcc_script : (s.setAcc v).script = s.script := rfl
@[simp] theorem State.setAcc_cycle : (s.setAcc v).cycle = s.cycle := rfl
end

section
variable (s : State) (v : BitVec 16)
@[simp] theorem State.setElapsed_st : (s.setElapsed v).st = s.st := rfl
@[simp] theorem State.setElapsed_op : (s.setElapsed v).op = s.op := rfl
@[simp] theorem State.setElapsed_tx : (s.setElapsed v).tx = s.tx := rfl
@[simp] theorem State.setElapsed_rx : (s.setElapsed v).rx = s.rx := rfl
@[simp] theorem State.setElapsed_acc : (s.setElapsed v).acc = s.acc := rfl
@[simp] theorem State.setElapsed_elapsed : (s.setElapsed v).elapsed = v := rfl
@[simp] theorem State.setElapsed_dly : (s.setElapsed v).dly = s.dly := rfl
@[simp] theorem State.setElapsed_res : (s.setElapsed v).res = s.res := rfl
@[simp] theorem State.setElapsed_rxq : (s.setElapsed v).rxq = s.rxq := rfl
@[simp] theorem State.setElapsed_txpend : (s.setElapsed v).txpend = s.txpend := rfl
@[simp] theorem State.setElapsed_wire : (s.setElapsed v).wire = s.wire := rfl
@[simp] theorem State.setElapsed_taken : (s.setElapsed v).taken = s.taken := rfl
@[simp] theorem State.setElapsed_started : (s.setElapsed v).started = s.started := rfl
@[simp] theorem State.setElapsed_script : (s.setElapsed v).script = s.script := rfl
@[simp] theorem State.setElapsed_cycle : (s.setElapsed v).cycle = s.cycle := rfl
end

section
variable (s : State) (v : BitVec 8)
@[simp] theorem State.setDly_st : (s.setDly v).st = s.st := rfl
@[simp] theorem State.setDly_op : (s.setDly v).op = s.op := rfl
@[simp] theorem State.setDly_tx : (s.setDly v).tx = s.tx := rfl
@[simp] theorem State.setDly_rx : (s.setDly v).rx = s.rx := rfl
@[simp] theorem State.setDly_acc : (s.setDly v).acc = s.acc := rfl
@[simp] theorem State.setDly_elapsed : (s.setDly v).elapsed = s.elapsed := rfl
@[simp] theorem State.setDly_dly : (s.setDly v).dly = v := rfl
@[simp] theorem State.setDly_res : (s.setDly v).res = s.res := rfl
@[simp] theorem State.setDly_rxq : (s.setDly v).rxq = s.rxq := rfl
@[simp] theorem State.setDly_txpend : (s.setDly v).txpend = s.txpend := rfl
@[simp] theorem State.setDly_wire : (s.setDly v).wire = s.wire := rfl
@[simp] theorem State.setDly_taken : (s.setDly v).taken = s.taken := rfl
@[simp] theorem State.setDly_started : (s.setDly v).started = s.started := rfl
@[simp] theorem State.setDly_script : (s.setDly v).script = s.script := rfl
@[simp] theorem State.setDly_cycle : (s.setDly v).cycle = s.cycle := rfl
end

section
variable (s : State) (v : Result)
@[simp] theorem State.setRes_st : (s.setRes v).st = s.st := rfl
@[simp] theorem State.setRes_op : (s.setRes v).op = s.op := rfl
@[simp] theorem State.setRes_tx : (s.setRes v).tx = s.tx := rfl
@[simp] theorem State.setRes_rx : (s.setRes v).rx = s.rx := rfl
@[simp] theorem State.setRes_acc : (s.setRes v).acc = s.acc := rfl
@[simp] theorem State.setRes_elapsed : (s.setRes v).elapsed = s.elapsed := rfl
@[simp] theorem State.setRes_dly : (s.setRes v).dly = s.dly := rfl
@[simp] theorem State.setRes_res : (s.setRes v).res = v := rfl
@[simp] theorem State.setRes_rxq : (s.setRes v).rxq = s.rxq := rfl
@[simp] theorem State.setRes_txpend : (s.setRes v).txpend = s.txpend := rfl
@[simp] theorem State.setRes_wire : (s.setRes v).wire = s.wire := rfl
@[simp] theorem State.setRes_taken : (s.setRes v).taken = s.taken := rfl
@[simp] theorem State.setRes_started : (s.setRes v).started = s.started := rfl
@[simp] theorem State.setRes_script : (s.setRes v).script = s.script := rfl
@[simp] theorem State.setRes_cycle : (s.setRes v).cycle = s.cycle := rfl
end

section
variable (s : State) (v : List Byte)
@[simp] theorem State.setRxq_st : (s.setRxq v).st = s.st := rfl
@[simp] theorem State.setRxq_op : (s.setRxq v).op = s.op := rfl
@[simp] theorem State.setRxq_tx : (s.setRxq v).tx = s.tx := rfl
@[simp] theorem State.setRxq_rx : (s.setRxq v).rx = s.rx := rfl
@[simp] theorem State.setRxq_acc : (s.setRxq v).acc = s.acc := rfl
@[simp] theorem State.setRxq_elapsed : (s.setRxq v).elapsed = s.elapsed := rfl
@[simp] theorem State.setRxq_dly : (s.setRxq v).dly = s.dly := rfl
@[simp] theorem State.setRxq_res : (s.setRxq v).res = s.res := rfl
@[simp] theorem State.setRxq_rxq : (s.setRxq v).rxq = v := rfl
@[simp] theorem State.setRxq_txpend : (s.setRxq v).txpend = s.txpend := rfl
@[simp] theorem State.setRxq_wire : (s.setRxq v).wire = s.wire := rfl
@[simp] theorem State.setRxq_taken : (s.setRxq v).taken = s.taken := rfl
@[simp] theorem State.setRxq_started : (s.setRxq v).started = s.started := rfl
@[simp] theorem State.setRxq_script : (s.setRxq v).script = s.script := rfl
@[simp] theorem State.setRxq_cycle : (s.setRxq v).cycle = s.cycle := rfl
end

section
variable (s : State) (v : List Byte)
@[simp] theorem State.setTxpend_st : (s.setTxpend v).st = s.st := rfl
@[simp] theorem State.setTxpend_op : (s.setTxpend v).op = s.op := rfl
@[simp] theorem State.setTxpend_tx : (s.setTxpend v).tx = s.tx := rfl
@[simp] theorem State.setTxpend_rx : (s.setTxpend v).rx = s.rx := rfl
@[simp] theorem State.setTxpend_acc : (s.setTxpend v).acc = s.acc := rfl
@[simp] theorem State.setTxpend_elapsed : (s.setTxpend v).elapsed = s.elapsed := rfl
@[simp] theorem State.setTxpend_dly : (s.setTxpend v).dly = s.dly := rfl
@[simp] theorem State.setTxpend_res : (s.setTxpend v).res = s.res := rfl
@[simp] theorem State.setTxpend_rxq : (s.setTxpend v).rxq = s.rxq := rfl
@[simp] theorem State.setTxpend_txpend : (s.setTxpend v).txpend = v := rfl
@[simp] theorem State.setTxpend_wire : (s.setTxpend v).wire = s.wire := rfl
@[simp] theorem State.setTxpend_taken : (s.setTxpend v).taken = s.taken := rfl
@[simp] theorem State.setTxpend_started : (s.setTxpend v).started = s.started := rfl
@[simp] theorem State.setTxpend_script : (s.setTxpend v).script = s.script := rfl
@[simp] theorem State.setTxpend_cycle : (s.setTxpend v).cycle = s.cycle := rfl
end

section
variable (s : State) (v : List Byte)
@[simp] theorem State.setWire_st : (s.setWire v).st = s.st := rfl
@[simp] theorem State.setWire_op : (s.setWire v).op = s.op := rfl
@[simp] theorem State.setWire_tx : (s.setWire v).tx = s.tx := rfl
@[simp] theorem State.setWire_rx : (s.setWire v).rx = s.rx := rfl
@[simp] theorem State.setWire_acc : (s.setWire v).acc = s.acc := rfl
@[simp] theorem State.setWire_elapsed : (s.setWire v).elapsed = s.elapsed := rfl
@[simp] theorem State.setWire_dly : (s.setWire v).dly = s.dly := rfl
@[simp] theorem State.setWire_res : (s.setWire v).res = s.res := rfl
@[simp] theorem State.setWire_rxq : (s.setWire v).rxq = s.rxq := rfl
@[simp] theorem State.setWire_txpend : (s.setWire v).txpend = s.txpend := rfl
@[simp] theorem State.setWire_wire : (s.setWire v).wire = v := rfl
@[simp] theorem State.setWire_taken : (s.setWire v).taken = s.taken := rfl
@[simp] theorem State.setWire_started : (s.setWire v).started = s.started := rfl
@[simp] theorem State.setWire_script : (s.setWire v).script = s.script := rfl
@[simp] theorem State.setWire_cycle : (s.setWire v).cycle = s.cycle := rfl
end

section
variable (s : State) (v : List Result)
@[simp] theorem State.setTaken_st : (s.setTaken v).st = s.st := rfl
@[simp] theorem State.setTaken_op : (s.setTaken v).op = s.op := rfl
@[simp] theorem State.setTaken_tx : (s.setTaken v).tx = s.tx := rfl
@[simp] theorem State.setTaken_rx : (s.setTaken v).rx = s.rx := rfl
@[simp] theorem State.setTaken_acc : (s.setTaken v).acc = s.acc := rfl
@[simp] theorem State.setTaken_elapsed : (s.setTaken v).elapsed = s.elapsed := rfl
@[simp] theorem State.setTaken_dly : (s.setTaken v).dly = s.dly := rfl
@[simp] theorem State.setTaken_res : (s.setTaken v).res = s.res := rfl
@[simp] theorem State.setTaken_rxq : (s.setTaken v).rxq = s.rxq := rfl
@[simp] theorem State.setTaken_txpend : (s.setTaken v).txpend = s.txpend := rfl
@[simp] theorem State.setTaken_wire : (s.setTaken v).wire = s.wire := rfl
@[simp] theorem State.setTaken_taken : (s.setTaken v).taken = v := rfl
@[simp] theorem State.setTaken_started : (s.setTaken v).started = s.started := rfl
@[simp] theorem State.setTaken_script : (s.setTaken v).script = s.script := rfl
@[simp] theorem State.setTaken_cycle : (s.setTaken v).cycle = s.cycle := rfl
end

section
variable (s : State) (v : Bool)
@[simp] theorem State.setStarted_st : (s.setStarted v).st = s.st := rfl
@[simp] theorem State.setStarted_op : (s.setStarted v).op = s.op := rfl
@[simp] theorem State.setStarted_tx : (s.setStarted v).tx = s.tx := rfl
@[simp] theorem State.setStarted_rx : (s.setStarted v).rx = s.rx := rfl
@[simp] theorem State.setStarted_acc : (s.setStarted v).acc = s.acc := rfl
@[simp] theorem State.setStarted_elapsed : (s.setStarted v).elapsed = s.elapsed := rfl
@[simp] theorem State.setStarted_dly : (s.setStarted v).dly = s.dly := rfl
@[simp] theorem State.setStarted_res : (s.setStarted v).res = s.res := rfl
@[simp] theorem State.setStarted_rxq : (s.setStarted v).rxq = s.rxq := rfl
@[simp] theorem State.setStarted_txpend : (s.setStarted v).txpend = s.txpend := rfl
@[simp] theorem State.setStarted_wire : (s.setStarted v).wire = s.wire := rfl
@[simp] theorem State.setStarted_taken : (s.setStarted v).taken = s.taken := rfl
@[simp] theorem State.setStarted_started : (s.setStarted v).started = v := rfl
@[simp] theorem State.setStarted_script : (s.setStarted v).script = s.script := rfl
@[simp] theorem State.setStarted_cycle : (s.setStarted v).cycle = s.cycle := rfl
end

section
variable (s : State) (v : List Move)
@[simp] theorem State.setScript_st : (s.setScript v).st = s.st := rfl
@[simp] theorem State.setScript_op : (s.setScript v).op = s.op := rfl
@[simp] theorem State.setScript_tx : (s.setScript v).tx = s.tx := rfl
@[simp] theorem State.setScript_rx : (s.setScript v).rx = s.rx := rfl
@[simp] theorem State.setScript_acc : (s.setScript v).acc = s.acc := rfl
@[simp] theorem State.setScript_elapsed : (s.setScript v).elapsed = s.elapsed := rfl
@[simp] theorem State.setScript_dly : (s.setScript v).dly = s.dly := rfl
@[simp] theorem State.setScript_res : (s.setScript v).res = s.res := rfl
@[simp] theorem State.setScript_rxq : (s.setScript v).rxq = s.rxq := rfl
@[simp] theorem State.setScript_txpend : (s.setScript v).txpend = s.txpend := rfl
@[simp] theorem State.setScript_wire : (s.setScript v).wire = s.wire := rfl
@[simp] theorem State.setScript_taken : (s.setScript v).taken = s.taken := rfl
@[simp] theorem State.setScript_started : (s.setScript v).started = s.started := rfl
@[simp] theorem State.setScript_script : (s.setScript v).script = v := rfl
@[simp] theorem State.setScript_cycle : (s.setScript v).cycle = s.cycle := rfl
end

section
variable (s : State) (v : List Move)
@[simp] theorem State.setCycle_st : (s.setCycle v).st = s.st := rfl
@[simp] theorem State.setCycle_op : (s.setCycle v).op = s.op := rfl
@[simp] theorem State.setCycle_tx : (s.setCycle v).tx = s.tx := rfl
@[simp] theorem State.setCycle_rx : (s.setCycle v).rx = s.rx := rfl
@[simp] theorem State.setCycle_acc : (s.setCycle v).acc = s.acc := rfl
@[simp] theorem State.setCycle_elapsed : (s.setCycle v).elapsed = s.elapsed := rfl
@[simp] theorem State.setCycle_dly : (s.setCycle v).dly = s.dly := rfl
@[simp] theorem State.setCycle_res : (s.setCycle v).res = s.res := rfl
@[simp] theorem State.setCycle_rxq : (s.setCycle v).rxq = s.rxq := rfl
@[simp] theorem State.setCycle_txpend : (s.setCycle v).txpend = s.txpend := rfl
@[simp] theorem State.setCycle_wire : (s.setCycle v).wire = s.wire := rfl
@[simp] theorem State.setCycle_taken : (s.setCycle v).taken = s.taken := rfl
@[simp] theorem State.setCycle_started : (s.setCycle v).started = s.started := rfl
@[simp] theorem State.setCycle_script : (s.setCycle v).script = s.script := rfl
@[simp] theorem State.setCycle_cycle : (s.setCycle v).cycle = v := rfl
end

end Sys2Proof.Machine
end

