-- ==== Sys2Proof/Laws/Ops.lean ====
section
/-! SUPPORT. What each shared operation does, once: buffers, FrameCodec, transport transactions, raising and
taking. Citing these replaces unfolding the operations. -/

namespace Sys2Proof.Machine

/-! ### Buffers -/

@[simp] theorem frameBytes_length (f : Frame) : (frameBytes f).length = 9 := rfl

@[simp] theorem frameOf_frameBytes (old f : Frame) : frameOf old (frameBytes f) = f := rfl

@[simp] theorem source_frameLen : Config.source.frameLen = 9 := rfl

@[simp] theorem memRead_whole (f : Frame) : memRead f 0 9 = frameBytes f := rfl

@[simp] theorem memWrite_whole (f g : Frame) : memWrite f 0 (frameBytes g) = g := rfl

theorem frameBytes_injective {f g : Frame} (h : frameBytes f = frameBytes g) : f = g := by
  have := congrArg (frameOf f) h
  simpa using this

theorem summedBytes_eq (f : Frame) :
    summedBytes Config.source f = [f.b1, f.b2, f.b3, f.b4, f.b5, f.b6, f.b7] := rfl

/-- BUILD under the source's layout (R113). -/
theorem build_eq (a c d0 d1 d2 d3 d4 : Byte) :
    build Config.source a c d0 d1 d2 d3 d4 =
      ⟨0xFF#8, a, c, d0, d1, d2, d3, d4, cksum [a, c, d0, d1, d2, d3, d4]⟩ := rfl

/-- VALIDATE under the source's layout (R115). -/
theorem validate_eq (f : Frame) :
    validate Config.source f =
      if f.b0 ≠ 0xFF#8 then some .badStartByte
      else if f.b1 ≠ 0x86#8 then some .badCommandEcho
      else if f.b8 ≠ cksum [f.b1, f.b2, f.b3, f.b4, f.b5, f.b6, f.b7] then some .checksumMismatch
      else none := rfl

/-- Nine bytes at the front of a list are a frame's bytes. -/
theorem exists_frameBytes {bs : List Byte} (h : bs.length = 9) : ∃ f, bs = frameBytes f := by
  match bs, h with
  | [b0, b1, b2, b3, b4, b5, b6, b7, b8], _ => exact ⟨⟨b0, b1, b2, b3, b4, b5, b6, b7, b8⟩, rfl⟩

/-! ### The transport under the contract -/

@[simp] theorem tAvail_contract (s : State) : tAvail {} s = s.rxq.length := rfl

@[simp] theorem readCount_contract (n : Nat) (s : State) : readCount {} n s = min n s.rxq.length := by
  simp [readCount]

@[simp] theorem writeCount_contract (v : List Byte) : writeCount {} v = v.length := by
  simp [writeCount]

@[simp] theorem writeReturn_contract (v : List Byte) : writeReturn {} v = v.length := by
  simp [writeReturn]

@[simp] theorem flushCount_contract (s : State) : flushCount {} s = s.txpend.length := by
  simp [flushCount]

theorem readCount_le (a : Answers) (n : Nat) (s : State) : readCount a n s ≤ n := by
  simp only [readCount]; omega

theorem readCount_le_length (a : Answers) (n : Nat) (s : State) : readCount a n s ≤ s.rxq.length := by
  simp only [readCount]; omega

@[simp] theorem tReadBytes_length (a : Answers) (n : Nat) (s : State) :
    (tReadBytes a n s).length = readCount a n s := by
  simp [tReadBytes, readCount_le_length]

/-- T_READ takes bytes off `rxq` and does nothing else. -/
theorem tRead_eq (a : Answers) (n : Nat) (s : State) :
    tRead a n s = { s with rxq := s.rxq.drop (readCount a n s) } := rfl

/-- T_WRITE and T_FLUSH under the contract: everything written goes to the wire behind what was pending. -/
theorem tFlush_tWrite_contract (v : List Byte) (s : State) :
    tFlush {} (tWrite {} v s) = { s with wire := s.wire ++ s.txpend ++ v, txpend := [] } := by
  simp [tFlush, tWrite, State.setWire, State.setTxpend]

/-! ### Raising, taking, building, reset -/

/-- `raise` writes the error's result and terminal state, and nothing else. -/
theorem raise_eq (e : ErrorKind) (s : State) :
    raise e s = { s with res := errorResult e, st := terminalOf e } := rfl

theorem terminalOf_isTerminal (e : ErrorKind) : isTerminal (terminalOf e) = true := by
  cases e <;> rfl

theorem takeResult_terminal {s : State} (h : isTerminal s.st = true) :
    takeResult s = { s with taken := s.taken ++ [s.res], st := .idle } := by
  simp [takeResult, h, State.setTaken, State.setSt]

theorem takeResult_other {s : State} (h : isTerminal s.st = false) : takeResult s = s := by
  simp [takeResult, h]

/-- BUILD by a host operation writes `tx` and `acc` only. -/
theorem buildTx_eq (command d0 : Byte) (s : State) :
    buildTx Config.source command d0 s =
      { s with tx := build Config.source 0x01#8 command d0 0#8 0#8 0#8 0#8
               acc := cksumAcc [0x01#8, command, d0, 0#8, 0#8, 0#8, 0#8] } := rfl

theorem isTerminal_iff (q : Fsm) :
    isTerminal q = true ↔ q = .done ∨ q = .timedOut ∨ q = .shortRd := by
  cases q <;> simp [isTerminal]

end Sys2Proof.Machine
end

