-- ==== Sys2Proof/Laws/Exchange.lean ====
section
/-! SUPPORT. What one CORE step can do: one lemma per step rule, and the split of `coreStep` over the
states of the FSM. -/

namespace Sys2Proof.Machine

variable {c : Config} {a : Answers} {s : State}

theorem coreStep_flushing (h : s.st = .flushing) : coreStep c a s = flushStep a s := by
  simp [coreStep, h]

theorem coreStep_sending (h : s.st = .sending) : coreStep c a s = sendStep c a s := by
  simp [coreStep, h]

theorem coreStep_polling (h : s.st = .waiting) (hd : s.dly = 0#8) : coreStep c a s = pollStep c a s := by
  simp [coreStep, h, hd]

theorem coreStep_reading (h : s.st = .reading) : coreStep c a s = readStep c a s := by
  simp [coreStep, h]

/-- Where no CORE step is enabled nothing changes. -/
theorem coreStep_disabled (h : coreEnabled s = false) : coreStep c a s = s := by
  unfold coreStep
  cases hs : s.st <;> simp_all [coreEnabled]

/-- FLUSH: on to Sending, or a byte off the queue. -/
theorem flushStep_cases (h : s.st = .flushing) :
    (tAvail a s = 0 ∧ flushStep a s = { s with st := .sending }) ∨
    (tAvail a s ≠ 0 ∧ flushStep a s = { s with rxq := s.rxq.drop (readCount a 1 s) }) := by
  by_cases h0 : tAvail a s = 0
  · exact .inl ⟨h0, by simp [flushStep, h0, State.setSt]⟩
  · refine .inr ⟨h0, ?_⟩
    cases s; simp_all [flushStep, tRead, State.setSt, State.setRxq]

/-- SEND: what it writes besides the transport's queues does not depend on the transport's answers. -/
theorem sendStep_eq (a : Answers) (s : State) :
    sendStep Config.source a s =
      { s with
        wire := (tFlush a (tWrite a (frameBytes s.tx) s)).wire
        txpend := (tFlush a (tWrite a (frameBytes s.tx) s)).txpend
        elapsed := 0#16
        dly := 0#8
        res := if s.op = 2#2 then okResult else s.res
        st := if s.op = 2#2 then .done else .waiting } := by
  by_cases h : s.op = 2#2 <;>
    simp [sendStep, h, finish, tFlush, tWrite, State.setWire, State.setTxpend, State.setElapsed,
      State.setDly, State.setRes, State.setSt]

/-- POLL: data, the end of the budget, or another delay. -/
theorem pollStep_cases (h : s.st = .waiting) :
    (0 < tAvail a s ∧ pollStep c a s = { s with st := .reading }) ∨
    (tAvail a s = 0 ∧ c.timeoutBudget ≤ s.elapsed.toNat ∧
      pollStep c a s = { s with res := errorResult .noResponse, st := .timedOut }) ∨
    (tAvail a s = 0 ∧ s.elapsed.toNat < c.timeoutBudget ∧
      pollStep c a s = { s with dly := BitVec.ofNat 8 c.pollInterval }) := by
  by_cases h0 : tAvail a s = 0
  · by_cases hb : c.timeoutBudget ≤ s.elapsed.toNat
    · exact .inr (.inl ⟨h0, hb, by simp [pollStep, h0, hb, raise_eq, terminalOf]⟩)
    · refine .inr (.inr ⟨h0, by omega, ?_⟩)
      cases s; simp_all [pollStep, State.setDly, State.setSt]
  · exact .inl ⟨by omega, by simp [pollStep, h0, State.setSt]⟩

/-- The result a READ of the nine bytes `f` ends with. -/
def readResult (c : Config) (op : BitVec 2) (f : Frame) : Result :=
  match validate c f with
  | some e => errorResult e
  | none => if op = 0#2 then resultRdconc c f else resultRdfull c f

theorem validate_terminal {f : Frame} {e : ErrorKind} (h : validate c f = some e) :
    terminalOf e = .done := by
  unfold validate at h
  split_ifs at h <;> cases h <;> rfl

/-- READ: nine bytes end in Done, fewer in ShortRd; what was read is off the queue. -/
theorem readStep_cases (a : Answers) (s : State) :
    (∃ f, tReadBytes a 9 s = frameBytes f ∧
      readStep Config.source a s = { s with
        rxq := s.rxq.drop (readCount a 9 s)
        rx := f
        acc := validateAcc Config.source f s.acc
        res := readResult Config.source s.op f
        st := .done }) ∨
    (readCount a 9 s < 9 ∧
      readStep Config.source a s = { s with
        rxq := s.rxq.drop (readCount a 9 s)
        rx := memWrite s.rx 0 (tReadBytes a 9 s)
        res := errorResult .shortRead
        st := .shortRd }) := by
  by_cases h : readCount a 9 s = 9
  · obtain ⟨f, hf⟩ := exists_frameBytes (bs := tReadBytes a 9 s)
      (by rw [tReadBytes_length]; exact h)
    refine .inl ⟨f, hf, ?_⟩
    have hv := @validate_terminal Config.source f
    unfold readStep
    simp only [source_frameLen, hf, memWrite_whole, frameBytes_length]
    simp only [if_true, finishRead, tRead_eq, State.setRx, State.setAcc, readResult]
    cases hval : validate Config.source f with
    | some e => simp [raise_eq, hv hval]
    | none => rfl
  · have := readCount_le a 9 s
    refine .inr ⟨by omega, ?_⟩
    simp [readStep, h, raise_eq, tRead_eq, State.setRx, terminalOf]

/-- TICK counts in a delay, and nowhere else. -/
theorem tickStep_cases (s : State) :
    (s.st = .waiting ∧ s.dly ≠ 0#8 ∧
      tickStep s = { s with dly := s.dly - 1#8, elapsed := s.elapsed + 1#16 }) ∨
    ((s.st ≠ .waiting ∨ s.dly = 0#8) ∧ tickStep s = s) := by
  by_cases h : s.st = .waiting ∧ s.dly ≠ 0#8
  · exact .inl ⟨h.1, h.2, by rw [tickStep, if_pos h]; rfl⟩
  · exact .inr ⟨by tauto, by rw [tickStep, if_neg h]⟩

/-! ### No CORE step and no tick looks at the moves to come -/

theorem tickStep_setScript (s : State) (r : List Move) :
    tickStep (s.setScript r) = (tickStep s).setScript r := by
  by_cases h : s.st = .waiting ∧ s.dly ≠ 0#8
  · rw [show tickStep s = _ from if_pos h, show tickStep (s.setScript r) = _ from if_pos h]; rfl
  · rw [show tickStep s = _ from if_neg h, show tickStep (s.setScript r) = _ from if_neg h]

theorem finishRead_setScript (c : Config) (s : State) (r : List Move) :
    finishRead c (s.setScript r) = (finishRead c s).setScript r := by
  simp only [finishRead, State.setScript_rx]
  cases validate c s.rx <;> rfl

theorem readStep_setScript (c : Config) (a : Answers) (s : State) (r : List Move) :
    readStep c a (s.setScript r) = (readStep c a s).setScript r := by
  by_cases h : (tReadBytes a c.frameLen s).length = c.frameLen
  · rw [show readStep c a s = _ from if_pos h, show readStep c a (s.setScript r) = _ from if_pos h,
      ← finishRead_setScript]; rfl
  · rw [show readStep c a s = _ from if_neg h, show readStep c a (s.setScript r) = _ from if_neg h]; rfl

theorem pollStep_setScript (c : Config) (a : Answers) (s : State) (r : List Move) :
    pollStep c a (s.setScript r) = (pollStep c a s).setScript r := by
  simp only [pollStep, tAvail, State.setScript_rxq, State.setScript_elapsed]
  by_cases h : a.avail.getD s.rxq.length = 0 <;>
    by_cases hb : c.timeoutBudget ≤ s.elapsed.toNat <;> simp only [h, hb, if_true, if_false, ne_eq,
      not_true_eq_false, not_false_eq_true] <;> rfl

theorem flushStep_setScript (a : Answers) (s : State) (r : List Move) :
    flushStep a (s.setScript r) = (flushStep a s).setScript r := by
  by_cases h : tAvail a s = 0
  · rw [show flushStep a s = _ from if_pos h, show flushStep a (s.setScript r) = _ from if_pos h]; rfl
  · rw [show flushStep a s = _ from if_neg h, show flushStep a (s.setScript r) = _ from if_neg h]; rfl

theorem sendStep_setScript (c : Config) (a : Answers) (s : State) (r : List Move) :
    sendStep c a (s.setScript r) = (sendStep c a s).setScript r := by
  by_cases h : s.op = 2#2
  · rw [show sendStep c a s = _ from if_pos h, show sendStep c a (s.setScript r) = _ from if_pos h]; rfl
  · rw [show sendStep c a s = _ from if_neg h, show sendStep c a (s.setScript r) = _ from if_neg h]; rfl

theorem coreStep_setScript (c : Config) (a : Answers) (s : State) (r : List Move) :
    coreStep c a (s.setScript r) = (coreStep c a s).setScript r := by
  cases hs : s.st
  case waiting =>
    by_cases h : s.dly = 0#8 <;>
      simp [coreStep, hs, h, pollStep_setScript]
  all_goals simp [coreStep, hs, flushStep_setScript, sendStep_setScript, readStep_setScript]

end Sys2Proof.Machine
end

