-- ==== Sys2Proof/Laws/Moves.lean ====
section
/-! SUPPORT. What `exec` and `step` can do: the inversion lemmas from which every statement about a step
is derived. -/

namespace Sys2Proof.Machine

theorem source_valid : Config.source.valid = true := by decide

/-! ### Words -/

theorem sendFrame_cases (f : Frame) (s : State) :
    (s.st = .sending ∧ s.tx = f ∧ sendFrame Config.source f s = coreStep Config.source {} s) ∨
    (¬(s.st = .sending ∧ s.tx = f) ∧ sendFrame Config.source f s = s) := by
  by_cases h : s.st = .sending ∧ s.tx = f
  · exact .inl ⟨h.1, h.2, by rw [sendFrame, if_pos h, coreStep_sending h.1]⟩
  · exact .inr ⟨h, by rw [sendFrame, if_neg h]⟩

theorem readyReply_some {s : State} {f : Frame} (h : readyReply Config.source s = some f) :
    s.st = .reading ∧ s.rxq = frameBytes f ++ s.rxq.drop 9 := by
  unfold readyReply at h
  split_ifs at h with hc
  · refine ⟨hc.1, ?_⟩
    have hlen : (s.rxq.take 9).length = 9 := by
      have := hc.2
      simp only [source_frameLen] at this
      simp; omega
    obtain ⟨g, hg⟩ := exists_frameBytes hlen
    simp only [source_frameLen, hg, frameOf_frameBytes, Option.some.injEq] at h
    rw [← h, ← hg, List.take_append_drop]

theorem readyReply_frame {s : State} {f : Frame} {rest : List Byte} (h : s.st = .reading)
    (hq : s.rxq = frameBytes f ++ rest) : readyReply Config.source s = some f := by
  have hlen : Config.source.frameLen ≤ s.rxq.length := by simp [hq]
  rw [readyReply, if_pos ⟨h, hlen⟩, hq]
  rfl

theorem echoReady_reading {code : Byte} {s : State} (h : echoReady Config.source code s = true) :
    s.st = .reading := by
  unfold echoReady at h
  split at h
  · rename_i f hf
    exact (readyReply_some hf).1
  · cases h

/-- What a word can do: nothing, be accepted in Idle as a host operation, be the CORE step in which it
crosses the interface, or arrive at the tail of `rxq`. -/
theorem exec_next {i : Instr} {s t : State} (h : exec i s = .next t) :
    t = s ∨
    (s.st = .idle ∧ ∃ en,
      (i = .rdconc en ∧ t = acceptRead Config.source 0#2 s) ∨
      (i = .rdfull en ∧ t = acceptRead Config.source 1#2 s) ∨
      (i = .setabc en ∧ t = acceptSetabc Config.source en s) ∨
      (i = .rsvd en ∧ t = acceptReserved s)) ∨
    (coreEnabled s = true ∧ t = coreStep Config.source {} s) ∨
    (∃ bytes, t = s.setRxq (s.rxq ++ bytes)) := by
  have send : ∀ f, t = sendFrame Config.source f s → t = s ∨
      (coreEnabled s = true ∧ t = coreStep Config.source {} s) := by
    intro f ht
    rcases sendFrame_cases f s with ⟨hs, _, he⟩ | ⟨_, he⟩
    · exact .inr ⟨by simp [coreEnabled, hs], ht.trans he⟩
    · exact .inl (ht.trans he)
  have sent : ∀ code, sentCode Config.source code s = .next t → t = s ∨
      (coreEnabled s = true ∧ t = coreStep Config.source {} s) := by
    intro code hc
    unfold sentCode at hc
    split_ifs at hc with h1 h2 <;> cases hc
    · exact .inr ⟨by simp [coreEnabled, h1.1], by rw [coreStep_sending h1.1]⟩
    · have hr := echoReady_reading h2
      exact .inr ⟨by simp [coreEnabled, hr], by rw [coreStep_reading hr]⟩
    · exact .inl rfl
  have unsent : ∀ code, unsentCode Config.source code s = .next t →
      coreEnabled s = true ∧ t = coreStep Config.source {} s := by
    intro code hc
    unfold unsentCode at hc
    split_ifs at hc with h2
    cases hc
    have hr := echoReady_reading h2
    exact ⟨by simp [coreEnabled, hr], by rw [coreStep_reading hr]⟩
  cases i with
  | rdconc en =>
    simp only [exec, execRdconc, offer, Host.Outcome.next.injEq] at h
    split_ifs at h with hi
    · exact .inr (.inl ⟨hi, en, .inl ⟨rfl, h.symm⟩⟩)
    · exact .inl h.symm
  | rdfull en =>
    simp only [exec, execRdfull, offer, Host.Outcome.next.injEq] at h
    split_ifs at h with hi
    · exact .inr (.inl ⟨hi, en, .inr (.inl ⟨rfl, h.symm⟩)⟩)
    · exact .inl h.symm
  | setabc en =>
    simp only [exec, execSetabc, offer, Host.Outcome.next.injEq] at h
    split_ifs at h with hi
    · exact .inr (.inl ⟨hi, en, .inr (.inr (.inl ⟨rfl, h.symm⟩))⟩)
    · exact .inl h.symm
  | rsvd en =>
    simp only [exec, execRsvd, offer, Host.Outcome.next.injEq] at h
    split_ifs at h with hi
    · exact .inr (.inl ⟨hi, en, .inr (.inr (.inr ⟨rfl, h.symm⟩))⟩)
    · exact .inl h.symm
  | cmdReadCo2 => rcases sent _ h with h | h <;> simp [h]
  | cmdSetAbc => rcases sent _ h with h | h <;> simp [h]
  | cmdCalZero => exact .inr (.inr (.inl (unsent _ h)))
  | cmdCalSpan => exact .inr (.inr (.inl (unsent _ h)))
  | cmdSetRange => exact .inr (.inr (.inl (unsent _ h)))
  | reqReadCo2 =>
    simp only [exec, execReqReadCo2, Host.Outcome.next.injEq] at h
    rcases send _ h.symm with h | h <;> simp [h]
  | reqAbcOn =>
    simp only [exec, execReqAbcOn, Host.Outcome.next.injEq] at h
    rcases send _ h.symm with h | h <;> simp [h]
  | reqAbcOff =>
    simp only [exec, execReqAbcOff, Host.Outcome.next.injEq] at h
    rcases send _ h.symm with h | h <;> simp [h]
  | req a c d0 d1 d2 d3 d4 k =>
    simp only [exec, execReq, Host.Outcome.next.injEq] at h
    rcases send _ h.symm with h | h <;> simp [h]
  | rspReadCo2 hh ll tt ss xx yy kk =>
    simp only [exec, execRspReadCo2, receiveFrame, Host.Outcome.next.injEq] at h
    split_ifs at h with hr
    · have hs := (readyReply_some hr).1
      exact .inr (.inr (.inl ⟨by simp [coreEnabled, hs], by rw [coreStep_reading hs, h]⟩))
    · exact .inr (.inr (.inr ⟨_, h.symm⟩))

/-! ### Moves -/

theorem coreMove_next {a : Answers} {s t : State} (h : coreMove Config.source a s = .next t) :
    t = coreStep Config.source a s := by
  unfold coreMove at h
  split_ifs at h
  cases h
  rfl

/-- What a move can do, on the state with its place among the moves to come already left. -/
theorem perform_next {m : Move} {s t : State} (h : perform m s = .next t) :
    (∃ bytes i, m = .word bytes ∧ decode bytes = .ok i ∧ exec i s = .next t) ∨
    (m = .take ∧ t = takeResult s) ∨
    (∃ bytes, m = .line bytes ∧ t = lineMove bytes s) ∨
    (m = .tick ∧ t = tickStep s) ∨
    (m = .run ∧ t = coreStep Config.source {} s) ∨
    (∃ a, m = .core a ∧ t = coreStep Config.source a s) ∨
    (m = .rst ∧ t = resetCore s) ∨
    (∃ u, m = .other u ∧ t = otherMove u s) ∨
    (∃ q, m = .corrupt q ∧ t = s.setRxq q) := by
  cases m with
  | word bytes =>
    simp only [perform, execWord] at h
    split at h
    · rename_i i hd
      exact .inl ⟨bytes, i, rfl, hd, h⟩
    · cases h
  | take => cases h; simp
  | line bytes => cases h; simp
  | tick => cases h; simp
  | run => simp [coreMove_next h]
  | core a => simp [coreMove_next h]
  | rst => cases h; simp
  | other u => cases h; simp
  | corrupt q => cases h; simp

/-- A script that is not used up is what is to come. -/
theorem upcoming_cons {s : State} {m : Move} {rest : List Move} (h : s.script = m :: rest) :
    upcoming s = m :: rest := by
  simp [upcoming, h]

/-- Behind the script comes the cycle. -/
theorem upcoming_nil {s : State} (h : s.script = []) : upcoming s = s.cycle := by
  simp [upcoming, h]

/-- What a step is: CORE alone when no move is to come, otherwise the first move. -/
theorem step_next {s t : State} (h : step s = .next t) :
    (upcoming s = [] ∧ s.started = true ∧ t = coreStep Config.source {} s) ∨
    (∃ m rest, upcoming s = m :: rest ∧ (involvesCore m = true → s.started = true) ∧
      perform m (s.setScript (restOfScript m rest s)) = .next t) := by
  simp only [step, source_valid, Bool.not_true, Bool.false_eq_true, if_false] at h
  split at h
  · rename_i hs
    unfold coreAlone at h
    split_ifs at h with h1
    exact .inl ⟨hs, h1, coreMove_next h⟩
  · rename_i m rest hs
    unfold takeMove at h
    split_ifs at h with h1
    refine .inr ⟨m, rest, hs, ?_, h⟩
    simpa using h1

/-- A step with a first move, when the block was reset. -/
theorem step_move {s : State} {m : Move} {rest : List Move} (hs : upcoming s = m :: rest)
    (h1 : s.started = true) : step s = perform m (s.setScript (restOfScript m rest s)) := by
  simp [step, source_valid, hs, takeMove, h1]

/-- A step with no move to come, when the block was reset: CORE goes on under the contract. -/
theorem step_alone {s : State} (hs : upcoming s = []) (h1 : s.started = true) :
    step s = .next (coreStep Config.source {} s) := by
  simp [step, source_valid, hs, coreAlone, h1, coreMove]

/-! ### Runs -/

theorem run_generic (M : Host.Core) (n : Nat) (s t : M.State) (h : M.step s = .next t) :
    M.run (n + 1) s = M.run n t := by
  rw [Host.Core.run, h]

/-- A run goes on from the state its first step gives. -/
theorem run_succ (n : Nat) {s t : State} (h : step s = .next t) :
    Host.Core.run Sys2Proof.core (n + 1) s = Host.Core.run Sys2Proof.core n t :=
  run_generic Sys2Proof.core n s t h

end Sys2Proof.Machine
end

