-- ==== Sys2Proof/Laws/PerInstr.lean ====
section
/-! SUPPORT. Statements for all instructions, one lemma per constructor. -/

namespace Sys2Proof.Laws.EncodedLength

/-- R80, R96: every encoding has a fixed length: one byte for a host word or a command code, nine for a
frame. -/
def Statement (i : Instr) : Prop :=
  (encode i).length =
    match i with
    | .rdconc _ => 1
    | .rdfull _ => 1
    | .setabc _ => 1
    | .rsvd _ => 1
    | .cmdReadCo2 => 1
    | .cmdCalZero => 1
    | .cmdCalSpan => 1
    | .cmdSetAbc => 1
    | .cmdSetRange => 1
    | .reqReadCo2 => 9
    | .reqAbcOn => 9
    | .reqAbcOff => 9
    | .req _ _ _ _ _ _ _ _ => 9
    | .rspReadCo2 _ _ _ _ _ _ _ => 9

theorem rdconc (en : Bool) : Statement (.rdconc en) := rfl
theorem rdfull (en : Bool) : Statement (.rdfull en) := rfl
theorem setabc (en : Bool) : Statement (.setabc en) := rfl
theorem rsvd (en : Bool) : Statement (.rsvd en) := rfl
theorem cmdReadCo2 : Statement .cmdReadCo2 := rfl
theorem cmdCalZero : Statement .cmdCalZero := rfl
theorem cmdCalSpan : Statement .cmdCalSpan := rfl
theorem cmdSetAbc : Statement .cmdSetAbc := rfl
theorem cmdSetRange : Statement .cmdSetRange := rfl
theorem reqReadCo2 : Statement .reqReadCo2 := rfl
theorem reqAbcOn : Statement .reqAbcOn := rfl
theorem reqAbcOff : Statement .reqAbcOff := rfl
theorem req (a c d0 d1 d2 d3 d4 k : Byte) : Statement (.req a c d0 d1 d2 d3 d4 k) := rfl
theorem rspReadCo2 (hh ll tt ss xx yy kk : Byte) : Statement (.rspReadCo2 hh ll tt ss xx yy kk) := rfl

end Sys2Proof.Laws.EncodedLength
end

