-- ==== Sys2Proof/Tests/Slice0.lean ====
section
/-! SUPPORT. The model's own tests, with the vector of spec/95_test_vectors.md each one takes its expected
result from, and a witness for the hypotheses of every statement that has some. -/

namespace Sys2Proof.Tests

open Sys2Proof.Machine

/-- The next state of an outcome, to compare it. -/
def after : Host.Outcome State Fault Refusal → Option State
  | .next s => some s
  | .fault _ => none
  | .refused _ => none

/-- The refusal of an outcome, to compare it. -/
def refusal : Host.Outcome State Fault Refusal → Option Refusal
  | .next _ => none
  | .fault _ => none
  | .refused r => some r

/-- A state at reset but for the FSM state and the operation. -/
def at' (st : Fsm) (op : BitVec 2) : State := { State.reset with st := st, op := op }

/-- The source's reply (vector L1.1). -/
def reply : Frame := ⟨0xFF#8, 0x86#8, 0x02#8, 0x58#8, 0x23#8, 0x40#8, 0#8, 0#8, 0xBD#8⟩

/-- A reply that is well summed and echoes another command code (vector V6). -/
def echo (code k : Byte) : Frame := ⟨0xFF#8, code, 0x01#8, 0#8, 0#8, 0#8, 0#8, 0#8, k⟩

/-- The state of X14: about to read, nine bytes and one more in the queue. -/
def ready (op : BitVec 2) (f : Frame) : State := { at' .reading op with rxq := frameBytes f ++ [0xEE#8] }

/-- A state with moves to come. -/
def withScript (ms : List Move) : State := { State.reset with script := ms }

/-! ### WellFormed: an ill-formed term for each check -/

/-- R81: a request whose checksum byte is wrong by one. -/
theorem test_illformed_checksum : WellFormed (.req 0x01 0x87 0 0 0 0 0 0x79) = false := by decide
/-- R83: a request whose byte 1 makes it a reply (vector B9). -/
theorem test_illformed_reply : WellFormed (.req 0x86 0x02 0x58 0x23 0x40 0 0 0xBD) = false := by decide
/-- R82: a request frame that has a row of its own (vector B1). -/
theorem test_illformed_own_row : WellFormed (.req 0x01 0x86 0 0 0 0 0 0x79) = false := by decide
/-- Vectors B4 and B8 are well-formed requests. -/
theorem test_wellformed_req : WellFormed (.req 0x01 0x87 0 0 0 0 0 0x78) = true ∧
    WellFormed (.req 0xFF 0xFF 0xFF 0xFF 0xFF 0xFF 0xFF 0x07) = true := by decide

/-! ### Decode: every row by a word written out from the table's encoding of it -/

theorem test_decode_rdconc : decode [0b00000000#8] = .ok (.rdconc false) ∧
    decode [0b00000001#8] = .ok (.rdconc true) := by decide
theorem test_decode_rdfull : decode [0b00000010#8] = .ok (.rdfull false) := by decide
theorem test_decode_setabc : decode [0b00000101#8] = .ok (.setabc true) ∧
    decode [0b00000100#8] = .ok (.setabc false) := by decide
theorem test_decode_rsvd : decode [0b00000111#8] = .ok (.rsvd true) := by decide
theorem test_decode_cmdReadCo2 : decode [0b10000110#8] = .ok .cmdReadCo2 := by decide
theorem test_decode_cmdCalZero : decode [0b10000111#8] = .ok .cmdCalZero := by decide
theorem test_decode_cmdCalSpan : decode [0b10001000#8] = .ok .cmdCalSpan := by decide
theorem test_decode_cmdSetAbc : decode [0b01111001#8] = .ok .cmdSetAbc := by decide
theorem test_decode_cmdSetRange : decode [0b10011001#8] = .ok .cmdSetRange := by decide
theorem test_decode_reqReadCo2 :
    decode [0xFF#8, 0x01#8, 0x86#8, 0#8, 0#8, 0#8, 0#8, 0#8, 0x79#8] = .ok .reqReadCo2 := by decide
theorem test_decode_reqAbcOn :
    decode [0xFF#8, 0x01#8, 0x79#8, 0xA0#8, 0#8, 0#8, 0#8, 0#8, 0xE6#8] = .ok .reqAbcOn := by decide
theorem test_decode_reqAbcOff :
    decode [0xFF#8, 0x01#8, 0x79#8, 0#8, 0#8, 0#8, 0#8, 0#8, 0x86#8] = .ok .reqAbcOff := by decide
/-- Vector B6. -/
theorem test_decode_req :
    decode [0xFF#8, 0x01#8, 0x99#8, 0#8, 0#8, 0#8, 0#8, 0#8, 0x66#8]
      = .ok (.req 0x01 0x99 0 0 0 0 0 0x66) := by decide
/-- Vector F2. -/
theorem test_decode_rspReadCo2 :
    decode [0xFF#8, 0x86#8, 0x01#8, 0x90#8, 0x3C#8, 0x00#8, 0x12#8, 0x34#8, 0x67#8]
      = .ok (.rspReadCo2 0x01 0x90 0x3C 0x00 0x12 0x34 0x67) := by decide
/-- R84, R91, R94, R96: what is no word is rejected by name. -/
theorem test_decode_rejects :
    decode [0b00001000#8] = .reject (.unknownByte 8) ∧ decode [] = .reject (.badLength 0) ∧
    decode [0xFE#8, 0x86#8, 0x02#8, 0x58#8, 0x23#8, 0x40#8, 0#8, 0#8, 0xBD#8] = .reject (.badStart 0xFE) ∧
    decode [0xFF#8, 0x01#8, 0x86#8, 0#8, 0#8, 0#8, 0#8, 0#8, 0x78#8] = .reject .badRequestChecksum := by
  decide
/-- The match values of the table, byte 0 in the top byte (R9). -/
theorem test_table_words :
    decodeTableWord 8 0x6 = some (.rsvd false) ∧ decodeTableWord 8 0x79 = some .cmdSetAbc ∧
    decodeTableWord 72 0xFF0179A000000000E6 = some .reqAbcOn ∧
    decodeTableWord 72 0xFF0000000000000000 = some (.req 0 0 0 0 0 0 0 0) ∧
    decodeTableWord 72 0xFF8600000000000000 = some (.rspReadCo2 0 0 0 0 0 0 0) := by decide

/-! ### FrameCodec -/

/-- Vectors K2, K5, K6, K10, K11, K12. -/
theorem test_cksum :
    cksum [0x01, 0x79, 0xA0, 0, 0, 0, 0] = 0xE6 ∧ cksum [0, 0, 0, 0, 0, 0, 0] = 0 ∧
    cksum [0xFF, 0xFF, 0xFF, 0xFF, 0xFF, 0xFF, 0xFF] = 0x07 ∧ cksum [0x80, 0x80, 0, 0, 0, 0, 0] = 0 ∧
    cksum [0x12, 0x34, 0x56, 0x78, 0x9A, 0xBC, 0xDE] = 0xB8 ∧ cksum [0, 0, 0, 0, 0, 0, 0xFF] = 0x01 := by
  decide
/-- Vectors K2, K6: what is left in `acc`. -/
theorem test_cksum_acc :
    cksumAcc [0x01, 0x79, 0xA0, 0, 0, 0, 0] = 0x1A ∧
    cksumAcc [0xFF, 0xFF, 0xFF, 0xFF, 0xFF, 0xFF, 0xFF] = 0xF9 := by decide
/-- Vectors B4, B9. -/
theorem test_build :
    build Config.source 0x01 0x87 0 0 0 0 0 = ⟨0xFF, 0x01, 0x87, 0, 0, 0, 0, 0, 0x78⟩ ∧
    build Config.source 0x86 0x02 0x58 0x23 0x40 0 0 = reply := by decide
/-- Vectors V1, V4, V5, V9, V11, V12, V16, V18. -/
theorem test_validate :
    validate Config.source reply = none ∧
    validate Config.source { reply with b1 := 0x87 } = some .badCommandEcho ∧
    validate Config.source { reply with b1 := 0x87, b8 := 0xBC } = some .badCommandEcho ∧
    validate Config.source { reply with b7 := 1 } = some .checksumMismatch ∧
    validate Config.source ⟨0xFF, 0xFF, 0xFF, 0xFF, 0xFF, 0xFF, 0xFF, 0xFF, 0xFF⟩ = some .badCommandEcho ∧
    validate Config.source { reply with b0 := 0xFE, b1 := 0x87, b8 := 0 } = some .badStartByte ∧
    validate Config.source { reply with b2 := 0x03, b3 := 0x57 } = none ∧
    validate Config.source readRequest = some .badCommandEcho := by decide
/-- Vectors P6, T2, T3, T8, S3. -/
theorem test_decoders :
    decodePpm { reply with b2 := 0x58, b3 := 0x02 } = 22530 ∧
    decodeTemp Config.source { reply with b4 := 0 } = 0x1D8 ∧
    decodeTemp Config.source { reply with b4 := 0x27 } = 0x1FF ∧
    decodeTemp Config.source { reply with b4 := 0xFF } = 0x0D7 ∧
    decodeStatus Config.source { reply with b5 := 0x41 } = (0x41, true) := by decide
/-- Vectors F1, F3, F4: the packed results. -/
theorem test_results :
    packResult (resultRdconc Config.source reply) = 0x0000002580 ∧
    packResult (resultRdfull Config.source reply) = 0x081FB02580 ∧
    packResult (resultRdfull Config.source ⟨0xFF, 0x86, 0xFF, 0xFF, 0, 0x40, 0, 0, 0x3C⟩) = 0x081D8FFFF0 ∧
    packResult (resultRdconc Config.source ⟨0xFF, 0x86, 0, 0, 0xFF, 0xFF, 0xFF, 0xFF, 0x7E⟩) = 0x8 ∧
    packResult (errorResult .noResponse) = 1 ∧ packResult (errorResult .illegalOp) = 7 := by decide

/-! ### Host words -/

/-- Program P1, line 1. -/
theorem test_rdconc : (after (exec (.rdconc true) State.reset)).map (fun t => (t.st, t.op, t.tx, t.acc))
    = some (.flushing, 0, readRequest, 0x87) := by decide
theorem test_rdfull : (after (exec (.rdfull false) State.reset)).map (fun t => (t.st, t.op, t.tx))
    = some (.flushing, 1, readRequest) := by decide
/-- Vectors L1.4 and K2. -/
theorem test_setabc : (after (exec (.setabc true) State.reset)).map (fun t => (t.st, t.op, t.tx, t.acc))
    = some (.sending, 2, abcOnRequest, 0x1A) := by decide
theorem test_setabc_off : (after (exec (.setabc false) State.reset)).map (fun t => (t.tx, t.acc))
    = some (abcOffRequest, 0x7A) := by decide
/-- Vector X18. -/
theorem test_rsvd : (after (exec (.rsvd true) State.reset)).map (fun t => (t.st, t.op, packResult t.res, t.tx))
    = some (.done, 3, 7, zeroFrame) := by decide
/-- Vector X19. -/
theorem test_offered_while_busy :
    after (exec (.setabc true) (at' .done 0)) = some (at' .done 0) := by decide

/-! ### Wire words -/

/-- Vector X3: elapsed 77 and dly 3 are cleared. -/
theorem test_reqReadCo2 :
    (after (exec .reqReadCo2 { at' .sending 0 with tx := readRequest, elapsed := 77, dly := 3 })).map
      (fun t => (t.st, t.elapsed, t.dly, t.wire, t.txpend))
    = some (.waiting, 0, 0, frameBytes readRequest, []) := by decide
/-- Vector X4. -/
theorem test_reqAbcOn :
    (after (exec .reqAbcOn { at' .sending 2 with tx := abcOnRequest, rxq := [0xAA] })).map
      (fun t => (t.st, packResult t.res, t.wire, t.rxq))
    = some (.done, 0, frameBytes abcOnRequest, [0xAA]) := by decide
theorem test_reqAbcOff :
    (after (exec .reqAbcOff { at' .sending 2 with tx := abcOffRequest })).map (fun t => (t.st, t.wire))
    = some (.done, frameBytes abcOffRequest) := by decide
/-- A request that is not the one in `tx` is not sent (R82, R136). -/
theorem test_req_not_in_tx :
    after (exec (.req 0x01 0x87 0 0 0 0 0 0x78) { at' .sending 0 with tx := readRequest })
    = some { at' .sending 0 with tx := readRequest } := by decide
/-- Vector X14. -/
theorem test_rsp_read :
    (after (exec (.rspReadCo2 0x02 0x58 0x23 0x40 0 0 0xBD) (ready 1 reply))).map
      (fun t => (t.st, t.rx, t.acc, packResult t.res, t.rxq))
    = some (.done, reply, 0x43, 0x081FB02580, [0xEE]) := by decide
/-- R61: outside Reading the reply joins the tail. -/
theorem test_rsp_delivered :
    (after (exec (.rspReadCo2 0x02 0x58 0x23 0x40 0 0 0xBD) { at' .waiting 1 with rxq := [0xEE] })).map
      (fun t => (t.st, t.rxq))
    = some (.waiting, 0xEE :: frameBytes reply) := by decide
theorem test_cmdReadCo2 :
    (after (exec .cmdReadCo2 { at' .sending 0 with tx := readRequest })).map (·.wire)
    = some (frameBytes readRequest) := by decide
theorem test_cmdSetAbc :
    (after (exec .cmdSetAbc { at' .sending 2 with tx := abcOnRequest })).map (·.wire)
    = some (frameBytes abcOnRequest) := by decide
/-- Vectors V6 and F9, and its kin with the other codes: BadCommandEcho. -/
theorem test_echoes :
    (after (exec .cmdSetAbc (ready 0 (echo 0x79 0x86)))).map (fun t => (t.st, packResult t.res))
      = some (.done, 3) ∧
    (after (exec .cmdCalZero (ready 0 (echo 0x87 0x78)))).map (fun t => (t.st, packResult t.res))
      = some (.done, 3) ∧
    (after (exec .cmdCalSpan (ready 0 (echo 0x88 0x77)))).map (fun t => (t.st, packResult t.res))
      = some (.done, 3) ∧
    (after (exec .cmdSetRange (ready 0 (echo 0x99 0x66)))).map (fun t => (t.st, packResult t.res))
      = some (.done, 3) := by decide
/-- U3: as requests they have no step. -/
theorem test_never_sent :
    refusal (exec .cmdCalZero State.reset) = some (.neverSent 0x87) ∧
    refusal (exec .cmdSetRange (at' .sending 0)) = some (.neverSent 0x99) := by decide

/-! ### Single steps of the FSM -/

/-- Vectors X1, X2. -/
theorem test_flush :
    coreStep Config.source {} { at' .flushing 0 with rxq := [0xAA, 0xBB] }
      = { at' .flushing 0 with rxq := [0xBB] } ∧
    coreStep Config.source {} (at' .flushing 0) = at' .sending 0 := by decide
/-- Vectors X6, X7, X8, X9. -/
theorem test_poll :
    (coreStep Config.source {} { at' .waiting 0 with elapsed := 495 }).dly = 5 ∧
    (coreStep Config.source {} { at' .waiting 0 with elapsed := 500 })
      = { at' .timedOut 0 with elapsed := 500, res := errorResult .noResponse } ∧
    (coreStep Config.source {} { at' .waiting 0 with elapsed := 500, rxq := [0xFF] }).st = .reading ∧
    (coreStep Config.source {} { at' .waiting 0 with rxq := [0x00] }).st = .reading := by decide
/-- Vectors X11, X12, X13. -/
theorem test_tick :
    tickStep { at' .waiting 0 with dly := 1, elapsed := 499 } = { at' .waiting 0 with elapsed := 500 } ∧
    tickStep { at' .waiting 0 with elapsed := 10 } = { at' .waiting 0 with elapsed := 10 } ∧
    tickStep { at' .reading 0 with dly := 1 } = { at' .reading 0 with dly := 1 } := by decide
/-- Vector X15. -/
theorem test_short_read :
    coreStep Config.source {} { at' .reading 0 with
      rx := ⟨0x11, 0x22, 0x33, 0x44, 0x55, 0x66, 0x77, 0x88, 0x99⟩, rxq := [0xFF, 0x86, 0x02] }
    = { at' .shortRd 0 with
        rx := ⟨0xFF, 0x86, 0x02, 0x44, 0x55, 0x66, 0x77, 0x88, 0x99⟩, res := errorResult .shortRead } := by
  decide
/-- Vector X17. -/
theorem test_take :
    takeResult { at' .timedOut 0 with res := errorResult .noResponse }
    = { at' .idle 0 with res := errorResult .noResponse, taken := [errorResult .noResponse] } := by decide
/-- Vector X20. -/
theorem test_rst :
    resetCore { at' .waiting 1 with tx := readRequest, dly := 3, wire := [1], rxq := [2] }
    = { State.reset with wire := [1], rxq := [2] } := by decide
/-- TC1 broken (R60): a count with nothing there leads to Reading, and the read is short. -/
theorem test_broken_avail :
    (coreStep Config.source { avail := some 1 } (at' .waiting 0)).st = .reading ∧
    (coreStep Config.source {} (at' .reading 0)).st = .shortRd := by decide
/-- R7, U19: the source's parameters are valid; a layout or an interval outside the constraints is not. -/
theorem test_config_valid : Config.source.valid = true ∧ ({ ckIndex := 7 } : Config).valid = false ∧
    ({ frameLen := 8 } : Config).valid = false ∧ ({ pollInterval := 0 } : Config).valid = false := by decide
/-- R7, R71: the largest count that fits COUNT_W shows as itself. -/
theorem test_count_bits : txnRspCount (.avail 65535) = 0xFFFF := by decide
/-- R60, TC3 broken: what is accepted and what is returned are two answers. -/
theorem test_write_count :
    let a : Answers := { write := some 2, written := some 70 }
    (coreTxns Config.source a { at' .sending 0 with tx := readRequest }).map txnRspCount = [70, 0] ∧
    (tWrite a (frameBytes readRequest) State.reset).txpend = [0xFF, 0x01] := by decide
/-- R71: the port fields of the request transaction of SEND. -/
theorem test_ports :
    (coreTxns Config.source {} { at' .sending 0 with tx := readRequest }).map
      (fun t => (txnReqOp t, txnReqLen t, txnReqData t))
    = [(2, 9, 0xFF0186000000000079), (3, 0, 0)] := by decide

/-! ### The step -/

/-- withFetchWord places a table word where the very next step runs it. -/
theorem test_fetch_host :
    (after (step (State.reset.withFetchWord 8 0x5))).map (fun t => (t.st, t.tx, t.script))
    = some (.sending, abcOnRequest, []) := by decide
theorem test_fetch_frame :
    (after (step (State.reset.withFetchWord 72 0xFF8602582340000000))).map (fun t => (t.st, t.rxq))
    = some (.idle, frameBytes { reply with b8 := 0 }) := by decide
/-- R97: RUN takes CORE's steps one by one and ends where none is enabled. -/
theorem test_run :
    (after (step { at' .flushing 0 with script := [.run] })).map (fun t => (t.st, t.script))
      = some (.sending, [.run]) ∧
    (after (step { at' .idle 0 with script := [.run] })).map (fun t => (t.st, t.script))
      = some (.idle, []) := by decide
/-- Program P9: FLUSH takes the byte, LINE restores it, and the same two moves are to come again. -/
theorem test_cycle :
    let s := { at' .flushing 0 with rxq := [0xAA], cycle := [.core {}, .line [0xAA]] }
    after (step s) = some { s with rxq := [], script := [.line [0xAA]] } ∧
    after (step { s with rxq := [], script := [.line [0xAA]] }) = some s := by decide
/-- R213, U16 and U4. -/
theorem test_refusals :
    refusal (step { State.reset with started := false, script := [.take] }) = some .neverReset ∧
    refusal (step (withScript [.word [0x08]])) = some (.noSuchWord (.unknownByte 8)) := by decide

/-! ### Witnesses: states and operands that meet the hypotheses of each statement -/

theorem witness_DecodeEncodeRoundTrip :
    ∀ i ∈ [Instr.rsvd true, .cmdSetRange, .reqAbcOff, .req 0x01 0x99 0 0 0 0 0 0x66,
      .rspReadCo2 0xFF 0xFF 0xFF 0xFF 0xFF 0xFF 0xFF], WellFormed i = true := by decide
theorem witness_DecodedWordEncodesBack : decode [0x99#8] = .ok .cmdSetRange := by decide
theorem witness_ChecksumClosedForms : (11 : Nat) ≤ 11 := by decide
theorem witness_ChecksumOrderAndSeed : [1#8, 2#8].Perm [2#8, 1#8] := by decide
theorem witness_BuildProperties :
    build Config.source 0xFF 0xFF 0xFF 0xFF 0xFF 0xFF 0xFF
      = build Config.source 0xFF 0xFF 0xFF 0xFF 0xFF 0xFF 0xFF ∧ (0xFF#8 : Byte) ≠ 0x86#8 := by decide
theorem witness_SingleByteCorruptionDetected :
    ∀ i ∈ [0, 1, 2, 8], i < 9 ∧ validate Config.source reply = none ∧ memRead reply i 1 ≠ [0x77#8] := by
  decide
theorem witness_CompensatingChangesUndetected :
    validate Config.source reply = none ∧ { reply with b2 := 3#8, b3 := 0x57#8 }.b0 = reply.b0 ∧
      { reply with b2 := 3#8, b3 := 0x57#8 }.b1 = reply.b1 := by decide
theorem witness_StepRunsDecodedWord :
    let s := withScript [.word [0x05#8], .take]
    upcoming s = .word [0x05#8] :: [.take] ∧ s.started = true ∧ decode [0x05#8] = .ok (.setabc true) := by
  decide
theorem witness_StepRefusesUnknownWord :
    let s := withScript [.word [0x08#8]]
    upcoming s = .word [0x08#8] :: [] ∧ s.started = true ∧ decode [0x08#8] = .reject (.unknownByte 8) := by
  decide
theorem witness_StepRunsCore :
    (let s := { at' .flushing 0 with script := [.core { read := some 0 }] }
     s.started = true ∧ upcoming s = .core { read := some 0 } :: [] ∧ { read := some 0 : Answers }.returns = true) ∧
    (let s := { at' .flushing 0 with script := [.run, .take] }
     s.started = true ∧ upcoming s = .run :: [.take] ∧ coreEnabled s = true) ∧
    (let s := { at' .waiting 0 with dly := 1, script := [.run] }
     s.started = true ∧ upcoming s = .run :: [] ∧ coreEnabled s = false) ∧
    (let s := at' .sending 0
     s.started = true ∧ upcoming s = []) := by decide
theorem witness_StuckTransportFaults :
    let s := { at' .reading 0 with script := [.core { returns := false }] }
    upcoming s = .core { returns := false } :: [] ∧ s.started = true ∧ coreEnabled s = true := by decide
theorem witness_NeverResetIsRefused :
    ∀ ms ∈ [[], [Move.word [0x05#8]], [.take], [.tick], [.run], [.core {}], [.line [1#8]],
        [.other .flush], [.corrupt []], [.rst]],
      upcoming { State.reset with started := false, script := ms } = ms ∧
      { State.reset with started := false, script := ms }.started = false := by decide
theorem witness_RdconcOperation :
    State.reset.st = .idle ∧
    ((ready 0 reply).st = .reading ∧ (ready 0 reply).op = 0#2 ∧
      (ready 0 reply).rxq = frameBytes reply ++ [0xEE#8] ∧ validate Config.source reply = none) ∧
    (isTerminal (at' .reading 0).st = false ∧
      isTerminal (coreStep Config.source {} (at' .reading 0)).st = true) := by decide
theorem witness_RdfullOperation :
    State.reset.st = .idle ∧
    ((ready 1 reply).st = .reading ∧ (ready 1 reply).op = 1#2 ∧
      (ready 1 reply).rxq = frameBytes reply ++ [0xEE#8] ∧ validate Config.source reply = none) ∧
    (isTerminal (at' .reading 1).st = false ∧
      isTerminal (coreStep Config.source {} (at' .reading 1)).st = true) := by decide
theorem witness_SetabcOperation :
    State.reset.st = .idle ∧ (at' .sending 2).st = .sending ∧ (at' .sending 2).op = 2#2 := by decide
theorem witness_ReservedOperation : State.reset.st = .idle := by decide
theorem witness_HostWordAcceptedOnlyInIdle :
    ((Instr.setabc true, 2#2, abcOnRequest, Fsm.sending) ∈
      [(Instr.rdconc true, 0#2, readRequest, Fsm.flushing), (.rdfull true, 1#2, readRequest, .flushing),
       (.setabc true, 2#2, if true then abcOnRequest else abcOffRequest, .sending),
       (.rsvd true, 3#2, zeroFrame, .done)]) ∧
    State.reset.st = .idle ∧ (at' .shortRd 0).st ≠ .idle := by decide
theorem witness_EnableBitIgnored : State.reset.st = .idle := by decide
theorem witness_NoAbort :
    (let s := { at' .waiting 0 with script := [.take] }
     upcoming s = .take :: [] ∧ s.started = true ∧ busy s = true ∧ isTerminal s.st = false) ∧
    (let s := { at' .flushing 0 with script := [.word [hostWord 3#2 true]] }
     upcoming s = .word [hostWord 3#2 true] :: [] ∧ s.started = true ∧ busy s = true ∧
       isTerminal s.st = false) := by decide
theorem witness_TakeReturnsResult :
    (let s := { at' .timedOut 0 with script := [.take] }
     upcoming s = .take :: [] ∧ s.started = true ∧ (s.st = .done ∨ s.st = .timedOut ∨ s.st = .shortRd) ∧
       after (step s) = some { at' .idle 0 with taken := [zeroResult] }) ∧
    (let s := { at' .waiting 0 with script := [.take] }
     ¬(s.st = .done ∨ s.st = .timedOut ∨ s.st = .shortRd)) := by decide
theorem witness_RequestFrameIsSent :
    (let s := { at' .sending 0 with tx := readRequest }
     s.st = .sending ∧ s.tx = readRequest ∧ s.tx = ⟨0xFF#8, 0x01#8, 0x86#8, 0#8, 0#8, 0#8, 0#8, 0#8, 0x79#8⟩) ∧
    (let s := { at' .sending 2 with tx := abcOnRequest }
     s.st = .sending ∧ s.tx = abcOnRequest) ∧
    (let s := { at' .sending 2 with tx := abcOffRequest }
     s.st = .sending ∧ s.tx = abcOffRequest) := by decide
theorem witness_RequestFrameNotSentElsewhere :
    (at' .waiting 0).st ≠ .sending ∧ (at' .sending 0).tx ≠ readRequest ∧
    (at' .sending 0).tx ≠ abcOnRequest ∧ (at' .sending 0).tx ≠ abcOffRequest ∧
    (at' .sending 0).tx ≠ ⟨0xFF#8, 0#8, 0#8, 0#8, 0#8, 0#8, 0#8, 0#8, 0#8⟩ := by decide
theorem witness_SentCodesCross :
    (let s := { at' .sending 0 with tx := readRequest }
     s.st = .sending ∧ s.tx.b2 = 0x86#8) ∧
    (let s := { at' .sending 2 with tx := abcOffRequest }
     s.st = .sending ∧ s.tx.b2 = 0x79#8) := by decide
theorem witness_EchoedCodesCross :
    ∀ f ∈ [reply, echo 0x79 0x86, echo 0x87 0x78, echo 0x88 0x77, echo 0x99 0x66],
      (ready 0 f).st = .reading ∧ (ready 0 f).rxq = frameBytes f ++ [0xEE#8] ∧ f.b0 = 0xFF#8 := by decide
theorem witness_NeverSentCodesRefused :
    (Instr.cmdSetRange, 0x99#8) ∈
      [(Instr.cmdCalZero, 0x87#8), (.cmdCalSpan, 0x88#8), (.cmdSetRange, 0x99#8)] ∧
    (at' .sending 0).st ≠ .reading ∧
    { at' .reading 0 with rxq := [1#8, 2#8, 3#8, 4#8, 5#8, 6#8, 7#8, 8#8] }.rxq.length < 9 ∧
    (ready 0 { echo 0x99 0x66 with b0 := 0xFE#8 }).rxq[0]? ≠ some 0xFF#8 ∧
    (ready 0 (echo 0x88 0x77)).rxq[1]? ≠ some 0x99#8 := by decide
theorem witness_SentCodesChangeNothingElsewhere :
    (Instr.cmdSetAbc, 0x79#8) ∈ [(Instr.cmdReadCo2, 0x86#8), (.cmdSetAbc, 0x79#8)] ∧
    (let s := { at' .sending 0 with tx := readRequest }
     s.tx.b2 ≠ 0x79#8 ∧ s.st ≠ .reading) ∧
    (let s := ready 0 reply
     s.st ≠ .sending ∧ s.rxq[1]? ≠ some 0x79#8) := by decide
theorem witness_ReplyFrameIsDelivered :
    State.reset.st ≠ .reading ∧ (ready 0 reply).rxq.take 9 ≠
      [0xFF#8, 0x86#8, 0x02#8, 0x58#8, 0x23#8, 0x40#8, 0#8, 0#8, 0xBC#8] := by decide
theorem witness_ReplyFrameIsRead :
    (ready 0 reply).st = .reading ∧ (ready 0 reply).rxq =
      [0xFF#8, 0x86#8, 0x02#8, 0x58#8, 0x23#8, 0x40#8, 0#8, 0#8, 0xBD#8] ++ [0xEE#8] := by decide
theorem witness_FlushDrains :
    let s := { at' .flushing 0 with rxq := [0xAA#8] }
    s.st = .flushing ∧ tAvail { avail := some 0 } s = 0 ∧ tAvail {} s ≠ 0 ∧ 0 ≤ s.rxq.length ∧
      1 ≤ s.rxq.length := by decide
theorem witness_DrainHasNoBound :
    let s := { at' .flushing 0 with rxq := [0xAA#8] }
    s.st = .flushing ∧ s.started = true ∧ s.rxq ≠ [] ∧
      ∀ feed ∈ [[1#8], [2#8, 3#8]], feed ≠ [] := by decide
theorem witness_EndlessDrain :
    let s := { at' .flushing 0 with rxq := [0xAA#8], cycle := feedRounds [[0xAA#8]] }
    (∀ feed ∈ [[0xAA#8]], feed ≠ []) ∧ s.st = .flushing ∧ s.started = true ∧ s.rxq ≠ [] ∧ s.script = [] ∧
      s.cycle = feedRounds [[0xAA#8]] := by decide
theorem witness_SendWritesOneRequest : (at' .sending 0).st = .sending := by decide
theorem witness_PollDecides :
    let s := { at' .waiting 0 with elapsed := 500#16 }
    let u := { at' .waiting 0 with elapsed := 499#16 }
    (s.st = .waiting ∧ s.dly = 0#8 ∧ tAvail {} s = 0 ∧ Config.source.timeoutBudget ≤ s.elapsed.toNat ∧
      0 < tAvail { avail := some 1 } s) ∧
    (u.st = .waiting ∧ u.dly = 0#8 ∧ tAvail {} u = 0 ∧ u.elapsed.toNat < Config.source.timeoutBudget) := by
  decide
theorem witness_TickCounts :
    let s := { at' .waiting 0 with dly := 1#8 }
    (s.st = .waiting ∧ s.dly ≠ 0#8) ∧ (at' .idle 0).st ≠ .waiting ∧ (at' .waiting 0).dly = 0#8 ∧
    upcoming (withScript [.tick]) = .tick :: [] ∧ (withScript [.tick]).started = true := by decide
theorem witness_StoppedClockWaitsForEver :
    let s := { at' .waiting 0 with dly := 5#8 }
    let u := { s with cycle := feedRounds [[0xAA#8], []] }
    (s.st = .waiting ∧ s.dly ≠ 0#8 ∧ s.started = true ∧ upcoming s = []) ∧
    u.script = [] ∧ u.cycle = feedRounds [[0xAA#8], []] := by decide
theorem witness_ReadWholeReply :
    (ready 0 (echo 0x79 0x86)).st = .reading ∧
    (ready 0 (echo 0x79 0x86)).rxq = frameBytes (echo 0x79 0x86) ++ [0xEE#8] := by decide
theorem witness_ShortReadIsAnError :
    let s := { at' .reading 0 with rxq := [1#8, 2#8, 3#8, 4#8, 5#8, 6#8, 7#8, 8#8] }
    s.st = .reading ∧ readCount {} 9 s < 9 ∧ readCount {} 9 (at' .reading 0) < 9 ∧
      readCount { read := some 0 } 9 (ready 0 reply) < 9 := by decide
theorem witness_TerminalStatesHold :
    let s := { at' .done 0 with script := [.tick] }
    after (step s) = some (at' .done 0) ∧ isTerminal s.st = true ∧ (upcoming s).head? ≠ some .take ∧
      (upcoming s).head? ≠ some .rst := by decide

/-- Two steps under the contract: SEND, and a move that sends nothing. -/
theorem witness_WireGrowsOnlyInSend :
    (let s := { at' .sending 2 with tx := abcOnRequest, script := [.run] }
     (after (step s)).isSome = true ∧ (upcoming s).head? = some .run) ∧
    (let s := { at' .idle 0 with script := [.line [1]] }
     (after (step s)).isSome = true ∧ (upcoming s).head? = some (.line [1])) ∧
    (∀ (s : State) (m : Move), m ∈ [.run, .line [1]] →
      KeepsContract s (some m) ∧ ∀ u, some m ≠ some (.other u)) := by
  refine ⟨by decide, by decide, fun s m hm => ?_⟩
  simp only [List.mem_cons, List.not_mem_nil, or_false] at hm
  rcases hm with rfl | rfl <;>
    simp [KeepsContract, tc1, tc2, tc3, tc4, tc5, tc6, answersOf]
theorem witness_TransactionsAccountForQueues : (at' .sending 2).op = 2#2 ∧ (at' .sending 2).st = .sending := by
  decide
/-- The configurations of the table under L2.6. -/
theorem witness_WaitingIsBounded :
    ∀ c ∈ [Config.source, { pollInterval := 7 }, { timeoutBudget := 0 }, { pollInterval := 255 }],
      c.valid = true ∧ (at' .waiting 0).st = .waiting ∧ (at' .waiting 0).dly = 0#8 ∧
      (at' .waiting 0).elapsed = 0#16 ∧ (at' .waiting 0).rxq = [] := by decide

/-- A state in the middle of a delay, as RDFULL reaches it, meets the invariant. -/
def waiting : State :=
  { at' .waiting 1 with tx := readRequest, acc := 0x87, elapsed := 12, dly := 3, rxq := [0xFF] }

theorem witness_CountersInv : CountersInv Config.source waiting := by
  unfold CountersInv
  decide
theorem witness_RequestInv : RequestInv waiting := by
  unfold RequestInv
  decide
theorem witness_ResultInv : ResultInv waiting := by
  unfold ResultInv
  decide
theorem witness_OutcomeInv : OutcomeInv waiting := by
  simp [OutcomeInv, waiting, at']
theorem witness_MachineInv : MachineInv waiting :=
  ⟨witness_CountersInv, witness_RequestInv, witness_ResultInv, witness_OutcomeInv⟩
theorem witness_OperationEndsWhenLineIsSilent :
    MachineInv waiting ∧ waiting.started = true ∧ busy waiting = true :=
  ⟨witness_MachineInv, by decide, by decide⟩
theorem witness_InvariantKeptByEveryStep :
    MachineInv waiting ∧ after (step { waiting with script := [.tick] })
      = some { waiting with elapsed := 13, dly := 2 } :=
  ⟨witness_MachineInv, by decide⟩
/-- From the same state at the end of a delay, POLL goes to Reading. -/
theorem witness_TransitionRelationComplete :
    MachineInv { waiting with elapsed := 15, dly := 0 } ∧
    after (step { waiting with elapsed := 15, dly := 0 })
      = some { waiting with st := .reading, elapsed := 15, dly := 0 } := by
  refine ⟨⟨?_, witness_RequestInv, witness_ResultInv, ?_⟩, by decide⟩
  · unfold CountersInv
    decide
  · simp [OutcomeInv, waiting, at']
theorem witness_ResetFromAnyState :
    upcoming { waiting with script := [.rst], started := false } = .rst :: [] := by decide
theorem witness_LineOnlyAppends : upcoming (withScript [.line [1, 2]]) = .line [1, 2] :: [] := by decide
theorem witness_OtherUserTouchesQueuesOnly :
    upcoming (withScript [.other (.read 2)]) = .other (.read 2) :: [] ∧
    upcoming (withScript [.other (.write [1])]) = .other (.write [1]) :: [] ∧
    upcoming (withScript [.other .flush]) = .other .flush :: [] ∧
    upcoming (withScript [.other .avail]) = .other .avail :: [] := by decide
theorem witness_HiddenRegistersNeverMatter :
    visible { waiting with rx := reply, acc := 1 } = visible waiting := by decide

end Sys2Proof.Tests
end

section
/-! The outputs of the block and the enabling of HOST's two moves (R33, R160, R168). -/

namespace Sys2Proof.Machine

theorem busy_iff (s : State) : busy s = true ↔ s.st ≠ .idle := by
  simp [busy]

theorem busy_eq_false_iff (s : State) : busy s = false ↔ s.st = .idle := by
  simp [busy]

theorem resValid_iff (s : State) :
    resValid s = true ↔ s.st = .done ∨ s.st = .timedOut ∨ s.st = .shortRd :=
  isTerminal_iff s.st

theorem busy_of_resValid {s : State} (h : resValid s = true) : busy s = true := by
  rw [busy_iff]
  intro hidle
  simp [resValid, hidle, isTerminal] at h

/-! ### Host words -/

theorem offer_idle {accept : State → State} {s : State} (h : s.st = .idle) :
    offer accept s = accept s := if_pos h

theorem offer_not_idle {accept : State → State} {s : State} (h : s.st ≠ .idle) :
    offer accept s = s := if_neg h

/-- An operation whose accepting step leaves Idle shows whether it was accepted. -/
theorem offer_eq_self_iff {accept : State → State} {s : State} (hleaves : (accept s).st ≠ .idle) :
    offer accept s = s ↔ s.st ≠ .idle := by
  by_cases hidle : s.st = .idle
  · have hmoved : accept s ≠ s := fun h => hleaves (by rw [h, hidle])
    simp [offer_idle hidle, hidle, hmoved]
  · simp [offer_not_idle hidle, hidle]

/-- Every host word offers an operation whose accepting step leaves Idle (R161 to R163, R165). -/
theorem exec_hostWord_eq_offer {en : Bool} {i : Instr}
    (hi : i ∈ [.rdconc en, .rdfull en, .setabc en, .rsvd en]) :
    ∃ accept : State → State,
      (∀ s, (accept s).st ≠ .idle) ∧ ∀ s, exec i s = .next (offer accept s) := by
  simp only [List.mem_cons, List.not_mem_nil, or_false] at hi
  rcases hi with rfl | rfl | rfl | rfl
  · exact ⟨acceptRead Config.source 0#2, fun s => by simp [acceptRead], fun s => rfl⟩
  · exact ⟨acceptRead Config.source 1#2, fun s => by simp [acceptRead], fun s => rfl⟩
  · exact ⟨acceptSetabc Config.source en, fun s => by simp [acceptSetabc], fun s => rfl⟩
  · exact ⟨acceptReserved, fun s => by simp [acceptReserved, raise_eq, terminalOf], fun s => rfl⟩

/-- H_CMD is enabled exactly while `busy = 0`. -/
theorem exec_hostWord_ne_self_iff {en : Bool} {i : Instr} (s : State)
    (hi : i ∈ [.rdconc en, .rdfull en, .setabc en, .rsvd en]) :
    exec i s ≠ .next s ↔ busy s = false := by
  obtain ⟨accept, hleaves, hexec⟩ := exec_hostWord_eq_offer hi
  rw [hexec, ne_eq, Host.Outcome.next.injEq, offer_eq_self_iff (hleaves s), not_not,
    busy_eq_false_iff]

/-! ### H_TAKE -/

/-- H_TAKE is enabled exactly while `res_valid = 1`: it lengthens HOST's copies, so it cannot pass unseen. -/
theorem takeResult_ne_self_iff (s : State) : takeResult s ≠ s ↔ resValid s = true := by
  unfold resValid
  cases h : isTerminal s.st with
  | false => simp [takeResult_other h]
  | true =>
    have hmoved : takeResult s ≠ s := fun hself => by
      have htaken := congrArg State.taken hself
      simp [takeResult_terminal h] at htaken
    simp [hmoved]

/-- Settles O55: both outputs read `st` alone, and each of HOST's moves has an effect exactly where its
output enables it. -/
theorem outputsAreFunctionsOfState : Obligations.OutputsAreFunctionsOfState := by
  intro s
  refine ⟨busy_iff s, resValid_iff s, fun en i hi => exec_hostWord_ne_self_iff s hi,
    takeResult_ne_self_iff s, rfl, ?_⟩
  rintro ⟨hready, hvalid⟩
  simp [cmdReady, busy_of_resValid hvalid] at hready

end Sys2Proof.Machine
end

section
/-! The host word and its enable bit (R91, R95, R165). -/

namespace Sys2Proof.Machine

/-! ### The fields of a host word: `decide` runs over its eight values -/

theorem hostWord_toNat :
    ∀ (op : BitVec 2) (en : Bool), (hostWord op en).toNat = 2 * op.toNat + en.toNat := by
  decide

theorem hostWord_upperBits :
    ∀ (op : BitVec 2) (en : Bool), (hostWord op en).extractLsb' 3 5 = 0#5 := by
  decide

theorem hostWord_opBits :
    ∀ (op : BitVec 2) (en : Bool), (hostWord op en).extractLsb' 1 2 = op := by
  decide

theorem hostWord_enableBit :
    ∀ (op : BitVec 2) (en : Bool), (hostWord op en).getLsbD 0 = en := by
  decide

/-- The decoder reads `cmd_op` and `cmd_en` back from a host word. -/
theorem decode_hostWord (op : BitVec 2) (en : Bool) :
    decode [hostWord op en] = .ok (decodeHost op en) := by
  simp only [decode, decodeByte, hostWord_upperBits, hostWord_opBits, hostWord_enableBit, if_true]

/-! ### The operations that do not look at `cmd_en` -/

theorem exec_rdconc (en : Bool) (s : State) :
    exec (.rdconc en) s = .next (offer (acceptRead Config.source 0#2) s) := rfl

theorem exec_rdfull (en : Bool) (s : State) :
    exec (.rdfull en) s = .next (offer (acceptRead Config.source 1#2) s) := rfl

theorem exec_rsvd (en : Bool) (s : State) :
    exec (.rsvd en) s = .next (offer acceptReserved s) := rfl

/-- R95: no right side of the three equations above mentions `cmd_en`. -/
theorem exec_enableBit_ignored (en en' : Bool) (s : State) :
    exec (.rdconc en) s = exec (.rdconc en') s ∧ exec (.rdfull en) s = exec (.rdfull en') s ∧
      exec (.rsvd en) s = exec (.rsvd en') s := by
  simp only [exec_rdconc, exec_rdfull, exec_rsvd, and_self]

/-! ### The reserved code and the transport -/

/-- The reserved code writes `op`, `res` and `st`, and nothing else (R165). -/
theorem acceptReserved_eq (s : State) :
    acceptReserved s = { s with op := 3#2, res := errorResult .illegalOp, st := .done } := rfl

/-- Where no CORE step is enabled, CORE issues no transaction (R147). -/
theorem coreTxns_disabled {c : Config} {a : Answers} {s : State} (h : coreEnabled s = false) :
    coreTxns c a s = [] := by
  cases hst : s.st <;> simp_all [coreEnabled, coreTxns]

theorem coreEnabled_idle {s : State} (h : s.st = .idle) : coreEnabled s = false := by
  simp [coreEnabled, h]

/-- Settles O4: the decoder reads both fields back from the word's layout, and SETABC's is the only
meaning that mentions `cmd_en`. -/
theorem hostWordCodes : Obligations.HostWordCodes :=
  ⟨hostWord_toNat,
   fun en => ⟨decode_hostWord 0 en, decode_hostWord 1 en, decode_hostWord 2 en, decode_hostWord 3 en⟩,
   exec_enableBit_ignored⟩

/-- Settles O25: the reserved code's accepting step writes registers alone, and CORE in Idle issues no
transaction. -/
theorem enableBitIgnored : Obligations.EnableBitIgnored := by
  intro s
  obtain ⟨hconc, hfull, hrsvd⟩ := exec_enableBit_ignored true false s
  refine ⟨hconc, hfull, hrsvd, fun hidle => ⟨acceptReserved s, ?_, ?_⟩⟩
  · rw [exec_rsvd, offer_idle hidle]
  · simp [acceptReserved_eq, errorResult, coreTxns_disabled (coreEnabled_idle hidle)]

end Sys2Proof.Machine
end

section
/-! The decoders of a reply as exact integers (R119 to R121). -/

namespace Sys2Proof.Machine

/-- R119: bytes 2 and 3 are the two digits of a base-256 number. -/
theorem decodePpm_toNat (f : Frame) : (decodePpm f).toNat = 256 * f.b2.toNat + f.b3.toNat := by
  have hlow : f.b3.toNat < 2 ^ 8 := f.b3.isLt
  rw [decodePpm, BitVec.toNat_append, ← Nat.shiftLeft_add_eq_or_of_lt hlow, Nat.shiftLeft_eq]
  omega

/-- R120: nine signed bits hold every difference of a byte and an offset of at most 256, so the
truncation loses nothing. -/
theorem decodeTemp_toInt {c : Config} (hoffset : c.tempOffset ≤ 256) (f : Frame) :
    (decodeTemp c f).toInt = (f.b4.toNat : Int) - c.tempOffset := by
  have hbyte : f.b4.toNat < 256 := f.b4.isLt
  calc (decodeTemp c f).toInt
      = ((f.b4.toNat : Int) - c.tempOffset).bmod (2 ^ 9) := by
        rw [decodeTemp, BitVec.toInt_sub, BitVec.toInt_setWidth, BitVec.toInt_ofNat', ← Int.sub_bmod]
    _ = f.b4.toNat - c.tempOffset := Int.bmod_eq_of_le (by omega) (by omega)

/-- Settles O13: the source's offset of 40 is within the range the nine bits hold exactly. -/
theorem decodersAreExact : Obligations.DecodersAreExact := by
  intro f
  have hoffset : Config.source.tempOffset ≤ 256 := by decide
  exact ⟨decodePpm_toNat f, decodeTemp_toInt hoffset f, rfl⟩

end Sys2Proof.Machine
end

section
/-! FLUSH, step by step, and the drain that LINE keeps up (R132, R133). -/

namespace Sys2Proof.Machine

/-! ### One FLUSH -/

/-- R132: FLUSH goes on to Sending where no byte is available. -/
theorem coreStep_flushing_none {c : Config} {a : Answers} {s : State} (hst : s.st = .flushing)
    (hnone : tAvail a s = 0) : coreStep c a s = { s with st := .sending } := by
  rw [coreStep_flushing hst]
  obtain ⟨-, hstep⟩ | ⟨hsome, -⟩ := flushStep_cases (a := a) hst
  · exact hstep
  · exact absurd hnone hsome

/-- R132: FLUSH drops the byte it reads where one is available. -/
theorem coreStep_flushing_some {c : Config} {a : Answers} {s : State} (hst : s.st = .flushing)
    (hsome : tAvail a s ≠ 0) :
    coreStep c a s = { s with rxq := s.rxq.drop (readCount a 1 s) } := by
  rw [coreStep_flushing hst]
  obtain ⟨hnone, -⟩ | ⟨-, hstep⟩ := flushStep_cases (a := a) hst
  · exact absurd hnone hsome
  · exact hstep

/-- Under the contract FLUSH takes exactly one byte off a queue that holds one. -/
theorem coreStep_flushing_contract {c : Config} {s : State} (hst : s.st = .flushing)
    (hpos : 0 < s.rxq.length) : coreStep c {} s = { s with rxq := s.rxq.drop 1 } := by
  have hone : readCount {} 1 s = 1 := by rw [readCount_contract]; omega
  rw [coreStep_flushing_some hst (by rw [tAvail_contract]; omega), hone]

/-! ### A queue that does not grow -/

theorem coreSteps_add (c : Config) (m n : Nat) (s : State) :
    coreSteps c (m + n) s = coreSteps c n (coreSteps c m s) := by
  induction m generalizing s with
  | zero => rw [Nat.zero_add]; rfl
  | succ m ih => rw [Nat.succ_add]; exact ih (coreStep c {} s)

theorem coreSteps_one (c : Config) (s : State) : coreSteps c 1 s = coreStep c {} s := rfl

/-- `k` steps of the drain drop `k` bytes. -/
theorem coreSteps_flushing (c : Config) {k : Nat} {s : State} (hst : s.st = .flushing)
    (hk : k ≤ s.rxq.length) : coreSteps c k s = { s with rxq := s.rxq.drop k } := by
  induction k generalizing s with
  | zero => rfl
  | succ k ih =>
    have hrest : k ≤ (s.rxq.drop 1).length := by rw [List.length_drop]; omega
    calc coreSteps c (k + 1) s
        = coreSteps c k { s with rxq := s.rxq.drop 1 } :=
          congrArg (coreSteps c k) (coreStep_flushing_contract hst (by omega))
      _ = { s with rxq := (s.rxq.drop 1).drop k } := ih (s := { s with rxq := _ }) hst hrest
      _ = { s with rxq := s.rxq.drop (k + 1) } := by rw [List.drop_drop, Nat.add_comm]

/-- After its last byte the drain takes one more step, on to Sending. -/
theorem coreSteps_flushing_all (c : Config) {s : State} (hst : s.st = .flushing) :
    coreSteps c (s.rxq.length + 1) s = { s with rxq := [], st := .sending } := by
  rw [coreSteps_add, coreSteps_flushing c hst le_rfl, List.drop_length, coreSteps_one]
  exact coreStep_flushing_none (s := { s with rxq := [] }) hst rfl

/-- Settles O35: the two branches of FLUSH, and an induction on the number of steps. -/
theorem flushDrains : Obligations.FlushDrains := by
  intro s hst
  exact ⟨fun a => coreStep_flushing_none hst, fun a => coreStep_flushing_some hst,
    fun k => coreSteps_flushing _ hst, coreSteps_flushing_all _ hst⟩

/-! ### A queue that LINE keeps filling -/

/-- The step that takes a FLUSH off the moves to come, where a byte is queued. -/
theorem step_core_flushing {s : State} {rest : List Move} (hnext : upcoming s = .core {} :: rest)
    (hstarted : s.started = true) (hst : s.st = .flushing) (hpos : 0 < s.rxq.length) :
    step s = .next { s with rxq := s.rxq.drop 1, script := rest } := by
  rw [step_move hnext hstarted]
  have hflush := coreStep_flushing_contract (c := Config.source) (s := s.setScript rest) hst hpos
  simp only [perform, coreMove, restOfScript, hflush, Bool.not_true, Bool.and_false,
    Bool.false_eq_true, if_false]
  rfl

/-- The step that takes LINE's bytes off the moves to come. -/
theorem step_line {s : State} {bytes : List Byte} {rest : List Move}
    (hnext : upcoming s = .line bytes :: rest) (hstarted : s.started = true) :
    step s = .next { s with rxq := s.rxq ++ bytes, script := rest } := by
  rw [step_move hnext hstarted]
  rfl

/-- A round of the drain, one FLUSH and one feed, changes nothing but the queue. -/
theorem run_feedRound (n : Nat) {s : State} {feed : List Byte} {rest : List Move}
    (hnext : upcoming s = .core {} :: .line feed :: rest) (hstarted : s.started = true)
    (hst : s.st = .flushing) (hpos : 0 < s.rxq.length) :
    Host.Core.run Sys2Proof.core (n + 2) s =
      Host.Core.run Sys2Proof.core n { s with rxq := s.rxq.drop 1 ++ feed, script := rest } :=
  (run_succ (n + 1) (step_core_flushing hnext hstarted hst hpos)).trans
    (run_succ n (step_line (upcoming_cons rfl) hstarted))

/-- Any number of rounds change nothing but a queue that never runs empty. -/
theorem run_feedRounds {feeds : List (List Byte)} {s : State} (hst : s.st = .flushing)
    (hstarted : s.started = true) (hpos : 0 < s.rxq.length) (hfeeds : ∀ feed ∈ feeds, feed ≠ []) :
    ∃ q, 0 < q.length ∧ Host.Core.run Sys2Proof.core (2 * feeds.length)
      { s with script := feedRounds feeds } = .next { s with rxq := q, script := [] } := by
  induction feeds generalizing s with
  | nil => exact ⟨s.rxq, hpos, rfl⟩
  | cons feed feeds ih =>
    obtain ⟨hfeed, hrest⟩ := List.forall_mem_cons.mp hfeeds
    have hfed : 0 < (s.rxq.drop 1 ++ feed).length :=
      List.length_pos_iff.mpr (List.append_ne_nil_of_right_ne_nil _ hfeed)
    obtain ⟨q, hq, hrun⟩ := ih (s := { s with rxq := s.rxq.drop 1 ++ feed }) hst hstarted hfed hrest
    exact ⟨q, hq, (run_feedRound (2 * feeds.length) (s := { s with script := _ })
      (upcoming_cons rfl) hstarted hst hpos).trans hrun⟩

/-- Settles O36: by induction on the feeds, each round leaves a byte in the queue. -/
theorem drainHasNoBound : Obligations.DrainHasNoBound := by
  intro feeds s hst hstarted hqueue hfeeds
  obtain ⟨q, hq, hrun⟩ := run_feedRounds hst hstarted (List.length_pos_iff.mpr hqueue) hfeeds
  exact ⟨_, hrun, hst, List.length_pos_iff.mp hq, rfl, rfl, rfl⟩

end Sys2Proof.Machine
end

section
/-! SEND and POLL (R135, R138). -/

namespace Sys2Proof.Machine

/-! ### SEND -/

/-- R135: under the contract SEND leaves what the rule says. -/
theorem coreStep_sending_contract {s : State} (hst : s.st = .sending) :
    coreStep Config.source {} s = afterSend s := by
  rw [coreStep_sending hst, sendStep_eq, tFlush_tWrite_contract]
  rfl

/-- The transport's answers show in its own queues only. -/
theorem coreStep_sending_registers (a : Answers) {s : State} (hst : s.st = .sending) :
    coreStep Config.source a s =
      { afterSend s with
        wire := (coreStep Config.source a s).wire
        txpend := (coreStep Config.source a s).txpend } := by
  rw [coreStep_sending hst, sendStep_eq]
  rfl

/-- R135: SEND writes the nine bytes of `tx` and flushes, in this order. -/
theorem coreTxns_sending (a : Answers) {s : State} (hst : s.st = .sending) :
    ∃ accepted count moved, coreTxns Config.source a s =
      [.write (frameBytes s.tx) accepted count, .flush moved] := by
  simp [coreTxns, hst]

/-- Settles O37: only the queues of a SEND depend on the transport's answers. -/
theorem sendWritesOneRequest : Obligations.SendWritesOneRequest := by
  intro s hst
  exact ⟨coreStep_sending_contract hst,
    fun a => ⟨coreStep_sending_registers a hst, coreTxns_sending a hst⟩⟩

/-! ### POLL -/

section
variable {c : Config} {a : Answers} {s : State}

/-- R138: data first. -/
theorem coreStep_polling_data (hst : s.st = .waiting) (hdly : s.dly = 0#8) (hdata : 0 < tAvail a s) :
    coreStep c a s = { s with st := .reading } := by
  rw [coreStep_polling hst hdly]
  obtain ⟨-, hstep⟩ | ⟨hnone, -⟩ | ⟨hnone, -⟩ := pollStep_cases (c := c) (a := a) hst
  · exact hstep
  all_goals omega

/-- R138: then the end of the budget. -/
theorem coreStep_polling_timeout (hst : s.st = .waiting) (hdly : s.dly = 0#8)
    (hnone : tAvail a s = 0) (hover : c.timeoutBudget ≤ s.elapsed.toNat) :
    coreStep c a s = { s with res := errorResult .noResponse, st := .timedOut } := by
  rw [coreStep_polling hst hdly]
  obtain ⟨hdata, -⟩ | ⟨-, -, hstep⟩ | ⟨-, hleft, -⟩ := pollStep_cases (c := c) (a := a) hst
  · omega
  · exact hstep
  · omega

/-- R138: and otherwise another delay. -/
theorem coreStep_polling_delay (hst : s.st = .waiting) (hdly : s.dly = 0#8)
    (hnone : tAvail a s = 0) (hleft : s.elapsed.toNat < c.timeoutBudget) :
    coreStep c a s = { s with dly := BitVec.ofNat 8 c.pollInterval } := by
  rw [coreStep_polling hst hdly]
  obtain ⟨hdata, -⟩ | ⟨-, hover, -⟩ | ⟨-, -, hstep⟩ := pollStep_cases (c := c) (a := a) hst
  · omega
  · omega
  · exact hstep

end

/-- Settles O38: the three branches of POLL. -/
theorem pollDecides : Obligations.PollDecides := by
  intro c a s hst hdly
  exact ⟨coreStep_polling_data hst hdly, coreStep_polling_timeout hst hdly,
    coreStep_polling_delay hst hdly⟩

end Sys2Proof.Machine
end

section
/-! TICK and the delay between two polls (R140). -/

namespace Sys2Proof.Machine

/-! ### One tick -/

theorem tickStep_delay {s : State} (hst : s.st = .waiting) (hdly : s.dly ≠ 0#8) :
    tickStep s = { s with dly := s.dly - 1#8, elapsed := s.elapsed + 1#16 } := by
  obtain ⟨-, -, hstep⟩ | ⟨hnot, -⟩ := tickStep_cases s
  · exact hstep
  · tauto

theorem tickStep_elsewhere {s : State} (hnot : s.st ≠ .waiting ∨ s.dly = 0#8) :
    tickStep s = s := by
  obtain ⟨hst, hdly, -⟩ | ⟨-, hstep⟩ := tickStep_cases s
  · tauto
  · exact hstep

/-- The step that takes a tick off the moves to come does this tick once. -/
theorem step_tick {s : State} {rest : List Move} (hnext : upcoming s = .tick :: rest)
    (hstarted : s.started = true) : step s = .next { tickStep s with script := rest } := by
  rw [step_move hnext hstarted]
  exact congrArg Host.Outcome.next (tickStep_setScript s rest)

/-! ### A delay -/

/-- In Waiting CORE's step is enabled exactly when the delay is over. -/
theorem coreEnabled_waiting {s : State} (hst : s.st = .waiting) :
    coreEnabled s = (s.dly == 0#8) := by
  simp [coreEnabled, hst]

/-- R140: during a delay CORE makes no transaction and takes no step. -/
theorem core_rests_in_delay (c : Config) (a : Answers) {s : State} (hst : s.st = .waiting)
    (hdly : s.dly ≠ 0#8) : coreTxns c a s = [] ∧ coreStep c a s = s := by
  have hrest : coreEnabled s = false := by rw [coreEnabled_waiting hst]; simpa using hdly
  exact ⟨coreTxns_disabled hrest, coreStep_disabled hrest⟩

/-- `n` ticks of a delay that lasts as long count `dly` down and `elapsed` up by `n`. -/
theorem ticks_delay {n : Nat} {s : State} (hst : s.st = .waiting) (hn : n ≤ s.dly.toNat) :
    ticks n s =
      { s with dly := s.dly - BitVec.ofNat 8 n, elapsed := s.elapsed + BitVec.ofNat 16 n } := by
  induction n generalizing s with
  | zero => simp [ticks]
  | succ n ih =>
    have hdly : s.dly ≠ 0#8 := by bv_omega
    have hleft : n ≤ (s.dly - 1#8).toNat := by bv_omega
    calc ticks (n + 1) s
        = ticks n { s with dly := s.dly - 1#8, elapsed := s.elapsed + 1#16 } :=
          congrArg (ticks n) (tickStep_delay hst hdly)
      _ = { s with
            dly := s.dly - 1#8 - BitVec.ofNat 8 n
            elapsed := s.elapsed + 1#16 + BitVec.ofNat 16 n } :=
          ih (s := { s with dly := _, elapsed := _ }) hst hleft
      _ = { s with
            dly := s.dly - BitVec.ofNat 8 (n + 1)
            elapsed := s.elapsed + BitVec.ofNat 16 (n + 1) } := by
          congr 1 <;> bv_omega

/-- R140: `dly` ticks end the delay and are counted whole. -/
theorem ticks_whole_delay {s : State} (hst : s.st = .waiting) :
    ticks s.dly.toNat s = { s with dly := 0#8, elapsed := s.elapsed + s.dly.zeroExtend 16 } := by
  rw [ticks_delay hst le_rfl, BitVec.ofNat_toNat, BitVec.ofNat_toNat, BitVec.setWidth_eq,
    BitVec.sub_self]

/-- After `dly` ticks POLL is enabled. -/
theorem coreEnabled_after_delay {s : State} (hst : s.st = .waiting) :
    coreEnabled (ticks s.dly.toNat s) = true := by
  rw [ticks_whole_delay hst]
  exact coreEnabled_waiting hst

/-- Settles O39: by induction on the ticks of the delay, in which CORE's step is not enabled. -/
theorem tickCounts : Obligations.TickCounts :=
  ⟨fun _ hst hdly => ⟨tickStep_delay hst hdly, fun a => core_rests_in_delay _ a hst hdly⟩,
    fun _ hst => ⟨ticks_whole_delay hst, coreEnabled_after_delay hst⟩,
    fun _ => tickStep_elsewhere, fun _ _ => step_tick⟩

end Sys2Proof.Machine
end

section
/-! READ of a whole reply and of a short one (R143 to R145). -/

namespace Sys2Proof.Machine

/-- The result that R144 writes out is the one READ computes. -/
theorem afterRead_eq (f : Frame) (rest : List Byte) (s : State) :
    afterRead f rest s = { s with
      rxq := rest
      rx := f
      acc := validateAcc Config.source f s.acc
      res := readResult Config.source s.op f
      st := .done } := by
  unfold afterRead readResult
  cases validate Config.source f <;> rfl

/-- R145: fewer than nine bytes, for whatever reason, end in ShortRd. -/
theorem coreStep_reading_short {a : Answers} {s : State} (hst : s.st = .reading)
    (hshort : readCount a 9 s < 9) :
    coreStep Config.source a s =
      afterShortRead (s.rxq.take (readCount a 9 s)) (s.rxq.drop (readCount a 9 s)) s := by
  rw [coreStep_reading hst]
  obtain ⟨f, hbytes, -⟩ | ⟨-, hstep⟩ := readStep_cases a s
  · have hlen := congrArg List.length hbytes
    rw [tReadBytes_length, frameBytes_length] at hlen
    omega
  · exact hstep

/-- R144: nine bytes that are there are all read under the contract. -/
theorem coreStep_reading_whole {s : State} {f : Frame} {rest : List Byte} (hst : s.st = .reading)
    (hqueue : s.rxq = frameBytes f ++ rest) :
    coreStep Config.source {} s = afterRead f rest s := by
  have hcount : readCount {} 9 s = 9 := by simp [hqueue]
  have hread : tReadBytes {} 9 s = frameBytes f := by
    rw [tReadBytes, hcount, hqueue, List.take_left' (frameBytes_length f)]
  have hleft : s.rxq.drop 9 = rest := by rw [hqueue, List.drop_left' (frameBytes_length f)]
  rw [coreStep_reading hst, afterRead_eq]
  obtain ⟨g, hbytes, hstep⟩ | ⟨hshort, -⟩ := readStep_cases {} s
  · obtain rfl : f = g := frameBytes_injective (hread.symm.trans hbytes)
    rw [hstep, hcount, hleft]
  · omega

/-- Settles O40: the nine bytes READ takes are the frame at the head of the queue. -/
theorem readWholeReply : Obligations.ReadWholeReply :=
  fun _ _ _ => coreStep_reading_whole

/-- Settles O41: a read of fewer than nine bytes cannot have given a frame. -/
theorem shortReadIsAnError : Obligations.ShortReadIsAnError :=
  fun _ _ => coreStep_reading_short

end Sys2Proof.Machine
end

section
/-! The accepting steps of the four host words, and the two operations that await no reply (R160,
R163, R165). -/

namespace Sys2Proof.Machine

/-! ### Accepting steps -/

/-- R161, R162: both read operations build the read request and go to Flushing. -/
theorem acceptRead_eq (op : BitVec 2) (s : State) :
    acceptRead Config.source op s =
      { s with op := op, tx := readRequest, acc := 0x87#8, st := .flushing } := rfl

/-- R163: SETABC builds the request of its operand and goes to Sending, without Flushing. -/
theorem acceptSetabc_eq (en : Bool) (s : State) :
    acceptSetabc Config.source en s =
      { s with
        op := 2#2
        tx := if en then abcOnRequest else abcOffRequest
        acc := if en then 0x1A#8 else 0x7A#8
        st := .sending } := by
  cases en <;> rfl

theorem exec_setabc (en : Bool) (s : State) :
    exec (.setabc en) s = .next (offer (acceptSetabc Config.source en) s) := rfl

section
variable (en : Bool) {s : State}

theorem exec_rdconc_idle (hidle : s.st = .idle) :
    exec (.rdconc en) s = .next (acceptRead Config.source 0#2 s) := by
  rw [exec_rdconc, offer_idle hidle]

theorem exec_rdfull_idle (hidle : s.st = .idle) :
    exec (.rdfull en) s = .next (acceptRead Config.source 1#2 s) := by
  rw [exec_rdfull, offer_idle hidle]

theorem exec_setabc_idle (hidle : s.st = .idle) :
    exec (.setabc en) s = .next (acceptSetabc Config.source en s) := by
  rw [exec_setabc, offer_idle hidle]

theorem exec_rsvd_idle (hidle : s.st = .idle) :
    exec (.rsvd en) s = .next (acceptReserved s) := by
  rw [exec_rsvd, offer_idle hidle]

end

/-! ### Outside Idle -/

/-- R160: a host word offered while CORE is busy leaves nothing behind. -/
theorem exec_hostWord_busy {en : Bool} {i : Instr} {s : State}
    (hi : i ∈ [.rdconc en, .rdfull en, .setabc en, .rsvd en]) (hbusy : s.st ≠ .idle) :
    exec i s = .next s ∧ cmdReady s = false := by
  obtain ⟨accept, -, hexec⟩ := exec_hostWord_eq_offer hi
  exact ⟨by rw [hexec, offer_not_idle hbusy], by rw [cmdReady, (busy_iff s).mpr hbusy, Bool.not_true]⟩

/-- Settles O24: elsewhere than in Idle by the law of `offer`, in Idle by the accepting step of each of
the four rows. -/
theorem hostWordAcceptedOnlyInIdle : Obligations.HostWordAcceptedOnlyInIdle := by
  intro en s i code request st hrow
  refine ⟨exec_hostWord_busy (en := en) (List.mem_map_of_mem (f := Prod.fst) hrow), fun hidle => ?_⟩
  simp only [List.mem_cons, List.not_mem_nil, or_false, Prod.mk.injEq] at hrow
  obtain ⟨rfl, rfl, rfl, rfl⟩ | ⟨rfl, rfl, rfl, rfl⟩ | ⟨rfl, rfl, rfl, rfl⟩ | ⟨rfl, rfl, rfl, rfl⟩ := hrow
  · exact ⟨_, exec_rdconc_idle en hidle, by simp [acceptRead_eq]⟩
  · exact ⟨_, exec_rdfull_idle en hidle, by simp [acceptRead_eq]⟩
  · exact ⟨_, exec_setabc_idle en hidle, by simp [acceptSetabc_eq]⟩
  · exact ⟨_, exec_rsvd_idle en hidle, by simp [acceptReserved_eq]⟩

/-! ### The reserved code and SETABC -/

/-- Settles O23: the accepting step of the reserved code ends in Done, where H_TAKE is enabled. -/
theorem reservedOperation : Obligations.ReservedOperation := fun en s hidle =>
  ⟨decode_hostWord 3#2 en, fun _ => coreTxns_disabled (coreEnabled_idle hidle),
    exec_rsvd_idle en hidle, takeResult_terminal (s := acceptReserved s) rfl, rfl⟩

/-- R163: the SEND of SETABC ends with OK and leaves `rxq` alone, whatever the transport answers. -/
theorem coreStep_setabc (a : Answers) {s : State} (hst : s.st = .sending) (hop : s.op = 2#2) :
    (coreStep Config.source a s).st = .done ∧ (coreStep Config.source a s).res = okResult ∧
      (coreStep Config.source a s).rxq = s.rxq := by
  rw [coreStep_sending_registers a hst]
  simp [afterSend, hop]

/-- Settles O22: the accepting steps of both operands, and SEND with `op = 2`. -/
theorem setabcOperation : Obligations.SetabcOperation := by
  refine ⟨decode_hostWord 2#2, fun s hidle => ⟨?_, ?_⟩, fun s hst hop => ?_, fun s a hst hop => ?_⟩
  · rw [exec_setabc_idle true hidle, acceptSetabc_eq]; rfl
  · rw [exec_setabc_idle false hidle, acceptSetabc_eq]; rfl
  · simp [coreStep_sending_contract hst, afterSend, hop, okResult]
  · obtain ⟨hdone, hres, hrxq⟩ := coreStep_setabc a hst hop
    exact ⟨hdone, hres, hrxq, coreTxns_sending a hst⟩

end Sys2Proof.Machine
end

section
/-! What one CORE step can do, for every answer of the transport (R130). -/

namespace Sys2Proof.Machine

/-- What the CORE step from `s` under the answers `a` can lead to, with the conditions of each branch. -/
inductive CoreStepTo (a : Answers) (s : State) : State → Prop where
  /-- No CORE step is enabled (R147). -/
  | rest (hdisabled : coreEnabled s = false) : CoreStepTo a s s
  /-- FLUSH with nothing available (R132). -/
  | drained (hst : s.st = .flushing) (hnone : tAvail a s = 0) : CoreStepTo a s { s with st := .sending }
  /-- FLUSH with a byte available (R132). -/
  | dropped (hst : s.st = .flushing) (hsome : tAvail a s ≠ 0) :
      CoreStepTo a s { s with rxq := s.rxq.drop (readCount a 1 s) }
  /-- SEND (R135). -/
  | sent (hst : s.st = .sending) : CoreStepTo a s { afterSend s with
      wire := (tFlush a (tWrite a (frameBytes s.tx) s)).wire
      txpend := (tFlush a (tWrite a (frameBytes s.tx) s)).txpend }
  /-- POLL with data (R138). -/
  | data (hst : s.st = .waiting) (hdly : s.dly = 0#8) (hdata : 0 < tAvail a s) :
      CoreStepTo a s { s with st := .reading }
  /-- POLL with no data and no budget left (R138). -/
  | expired (hst : s.st = .waiting) (hdly : s.dly = 0#8) (hnone : tAvail a s = 0)
      (hover : Config.source.timeoutBudget ≤ s.elapsed.toNat) :
      CoreStepTo a s { s with res := errorResult .noResponse, st := .timedOut }
  /-- POLL with no data and budget left (R138). -/
  | delayed (hst : s.st = .waiting) (hdly : s.dly = 0#8) (hnone : tAvail a s = 0)
      (hleft : s.elapsed.toNat < Config.source.timeoutBudget) :
      CoreStepTo a s { s with dly := BitVec.ofNat 8 Config.source.pollInterval }
  /-- READ of nine bytes (R144). -/
  | read (hst : s.st = .reading) (f : Frame) (hbytes : tReadBytes a 9 s = frameBytes f) :
      CoreStepTo a s (afterRead f (s.rxq.drop (readCount a 9 s)) s)
  /-- READ of fewer than nine bytes (R145). -/
  | short (hst : s.st = .reading) (hshort : readCount a 9 s < 9) :
      CoreStepTo a s (afterShortRead (tReadBytes a 9 s) (s.rxq.drop (readCount a 9 s)) s)

/-- Every CORE step is one of these. -/
theorem coreStep_to (a : Answers) (s : State) : CoreStepTo a s (coreStep Config.source a s) := by
  by_cases henabled : coreEnabled s = false
  · rw [coreStep_disabled henabled]
    exact .rest henabled
  cases hst : s.st
  case flushing =>
    rw [coreStep_flushing hst]
    obtain ⟨hnone, hstep⟩ | ⟨hsome, hstep⟩ := flushStep_cases (a := a) hst <;> rw [hstep]
    · exact .drained hst hnone
    · exact .dropped hst hsome
  case sending =>
    rw [coreStep_sending hst, sendStep_eq]
    exact .sent hst
  case waiting =>
    have hdly : s.dly = 0#8 := by simpa [coreEnabled_waiting hst] using henabled
    rw [coreStep_polling hst hdly]
    obtain ⟨hdata, hstep⟩ | ⟨hnone, hover, hstep⟩ | ⟨hnone, hleft, hstep⟩ :=
      pollStep_cases (c := Config.source) (a := a) hst <;> rw [hstep]
    · exact .data hst hdly hdata
    · exact .expired hst hdly hnone hover
    · exact .delayed hst hdly hnone hleft
  case reading =>
    rw [coreStep_reading hst]
    obtain ⟨f, hbytes, hstep⟩ | ⟨hshort, hstep⟩ := readStep_cases a s <;> rw [hstep]
    · rw [← afterRead_eq]
      exact .read hst f hbytes
    · exact .short hst hshort
  all_goals simp [coreEnabled, hst] at henabled

end Sys2Proof.Machine
end

section
/-! How a read operation ends (R161, R162). -/

namespace Sys2Proof.Machine

/-! ### A valid reply -/

/-- A valid reply passed all three tests of VALIDATE, so `acc` holds its sum (R115). -/
theorem validateAcc_of_valid {f : Frame} (hvalid : validate Config.source f = none) (acc : Byte) :
    validateAcc Config.source f acc = cksumAcc [f.b1, f.b2, f.b3, f.b4, f.b5, f.b6, f.b7] := by
  have hhead : f.b0 = 0xFF#8 ∧ f.b1 = 0x86#8 := by
    rw [validate_eq] at hvalid
    split_ifs at hvalid with hstart hecho hsum
    exact ⟨not_not.mp hstart, not_not.mp hecho⟩
  exact if_pos hhead

/-- READ of a valid reply under the contract: the result is that of the operation (R144). -/
theorem coreStep_reading_valid {s : State} {f : Frame} {rest : List Byte} (hst : s.st = .reading)
    (hqueue : s.rxq = frameBytes f ++ rest) (hvalid : validate Config.source f = none) :
    coreStep Config.source {} s = { s with
      rxq := rest
      rx := f
      acc := cksumAcc [f.b1, f.b2, f.b3, f.b4, f.b5, f.b6, f.b7]
      res := if s.op = 0#2 then resultRdconc Config.source f else resultRdfull Config.source f
      st := .done } := by
  rw [coreStep_reading_whole hst hqueue, afterRead_eq, validateAcc_of_valid hvalid, readResult, hvalid]

/-! ### Every other end -/

/-- The errors a read operation can end with (R161, R162). -/
def readErrors : List ErrorKind :=
  [.noResponse, .shortRead, .badStartByte, .badCommandEcho, .checksumMismatch]

/-- A verdict of VALIDATE is an error of a read operation. -/
theorem validate_mem_readErrors {c : Config} {f : Frame} {e : ErrorKind} (h : validate c f = some e) :
    e ∈ readErrors := by
  unfold validate at h
  split_ifs at h <;> cases h <;> simp [readErrors]

/-- What a read operation can leave in `res`: OK, or one of its five errors with every data field 0. -/
def ReadOutcome (r : Result) : Prop :=
  r.status = 0#3 ∨ ∃ e ∈ readErrors, r = errorResult e

theorem readOutcome_errorResult {e : ErrorKind} (he : e ∈ readErrors) : ReadOutcome (errorResult e) :=
  .inr ⟨e, he, rfl⟩

theorem readOutcome_readResult (c : Config) (op : BitVec 2) (f : Frame) :
    ReadOutcome (readResult c op f) := by
  unfold readResult
  cases hverdict : validate c f with
  | some e => exact readOutcome_errorResult (validate_mem_readErrors hverdict)
  | none => exact .inl (by by_cases hop : op = 0#2 <;> simp [hop, resultRdconc, resultRdfull])

/-- A read operation ends in POLL or in READ alone, and there with one of its outcomes, for every answer
of the transport. -/
theorem readOutcome_of_coreStep_ends {s : State} {a : Answers} (hop : s.op ≠ 2#2)
    (hbusy : isTerminal s.st = false) (hends : isTerminal (coreStep Config.source a s).st = true) :
    ReadOutcome (coreStep Config.source a s).res := by
  have hto := coreStep_to a s
  generalize coreStep Config.source a s = t at hends hto ⊢
  cases hto with
  | rest => simp [hbusy] at hends
  | drained => simp [isTerminal] at hends
  | dropped hst => simp [hst, isTerminal] at hends
  | sent => simp [afterSend, hop, isTerminal] at hends
  | data => simp [isTerminal] at hends
  | expired => exact readOutcome_errorResult (by simp [readErrors])
  | delayed hst => simp [hst, isTerminal] at hends
  | read _ f =>
    rw [afterRead_eq]
    exact readOutcome_readResult _ _ f
  | short => exact readOutcome_errorResult (e := .shortRead) (by simp [readErrors])

/-! ### The two operations -/

/-- Settles O20: its steps are those of a read operation with `op = 0`. -/
theorem rdconcOperation : Obligations.RdconcOperation := by
  refine ⟨decode_hostWord 0#2, fun en s => exec_rdconc_idle en, fun s f rest hst hop hqueue hvalid => ?_,
    fun s a hop => readOutcome_of_coreStep_ends (by simp [hop])⟩
  rw [coreStep_reading_valid hst hqueue hvalid, if_pos hop]
  rfl

/-- Settles O21: its steps are those of a read operation with `op = 1`. -/
theorem rdfullOperation : Obligations.RdfullOperation := by
  refine ⟨decode_hostWord 1#2, fun en s => exec_rdfull_idle en, fun s f rest hst hop hqueue hvalid => ?_,
    fun s a hop => readOutcome_of_coreStep_ends (by simp [hop])⟩
  rw [coreStep_reading_valid hst hqueue hvalid, if_neg (by simp [hop])]
  rfl

end Sys2Proof.Machine
end

section
/-! H_TAKE, and what of the machine reaches HOST (R168). -/

namespace Sys2Proof.Machine

/-! ### What keeps HOST's copies -/

/-- No CORE step gives HOST anything. -/
theorem coreStep_taken (a : Answers) (s : State) : (coreStep Config.source a s).taken = s.taken := by
  have hto := coreStep_to a s
  generalize coreStep Config.source a s = t at hto ⊢
  cases hto <;> rfl

theorem tickStep_taken (s : State) : (tickStep s).taken = s.taken := by
  obtain ⟨-, -, hstep⟩ | ⟨-, hstep⟩ := tickStep_cases s <;> rw [hstep]

theorem otherMove_taken (u : UserTxn) (s : State) : (otherMove u s).taken = s.taken := by
  cases u <;> rfl

/-- No word gives HOST anything: not a host word, and not one of the wire. -/
theorem exec_taken {i : Instr} {s t : State} (h : exec i s = .next t) : t.taken = s.taken := by
  obtain rfl | ⟨-, en, hword⟩ | ⟨-, rfl⟩ | ⟨bytes, rfl⟩ := exec_next h
  · rfl
  · obtain ⟨-, rfl⟩ | ⟨-, rfl⟩ | ⟨-, rfl⟩ | ⟨-, rfl⟩ := hword <;> rfl
  · exact coreStep_taken {} s
  · rfl

/-- A move other than H_TAKE keeps HOST's copies. -/
theorem perform_taken {m : Move} {s t : State} (h : perform m s = .next t) (htake : m ≠ .take) :
    t.taken = s.taken := by
  obtain ⟨bytes, i, -, -, hexec⟩ | ⟨hm, -⟩ | ⟨bytes, -, rfl⟩ | ⟨-, rfl⟩ | ⟨-, rfl⟩ | ⟨a, -, rfl⟩ |
    ⟨-, rfl⟩ | ⟨u, -, rfl⟩ | ⟨q, -, rfl⟩ := perform_next h
  · exact exec_taken hexec
  · exact absurd hm htake
  · rfl
  · exact tickStep_taken s
  · exact coreStep_taken {} s
  · exact coreStep_taken a s
  · rfl
  · exact otherMove_taken u s
  · rfl

/-! ### H_TAKE -/

/-- The step that takes an H_TAKE off the moves to come. -/
theorem step_take {s : State} {rest : List Move} (hnext : upcoming s = .take :: rest)
    (hstarted : s.started = true) : step s = .next (takeResult (s.setScript rest)) :=
  step_move hnext hstarted

/-- H_TAKE gives HOST `res` where `res_valid = 1`, and nothing elsewhere. -/
theorem takeResult_taken (s : State) :
    (resValid s = true ∧ (takeResult s).taken = s.taken ++ [s.res]) ∨ (takeResult s).taken = s.taken := by
  unfold resValid
  cases hterminal : isTerminal s.st with
  | true => exact .inl ⟨rfl, by rw [takeResult_terminal hterminal]⟩
  | false => exact .inr (by rw [takeResult_other hterminal])

/-- A step that changes HOST's copies is an H_TAKE in a terminal state, and it gives `res`. -/
theorem step_taken {s t : State} (h : step s = .next t) (hchanged : t.taken ≠ s.taken) :
    (upcoming s).head? = some .take ∧ resValid s = true ∧ t.taken = s.taken ++ [s.res] := by
  obtain ⟨-, -, rfl⟩ | ⟨m, rest, hnext, -, hperform⟩ := step_next h
  · exact absurd (coreStep_taken {} s) hchanged
  by_cases htake : m = .take
  · subst htake
    obtain rfl : takeResult (s.setScript rest) = t := Host.Outcome.next.inj hperform
    obtain hgiven | hkept := takeResult_taken (s.setScript rest)
    · exact ⟨by rw [hnext]; rfl, hgiven⟩
    · exact absurd hkept hchanged
  · exact absurd (perform_taken hperform htake) hchanged

/-- Settles O27: both cases of H_TAKE, and every other move keeps HOST's copies. -/
theorem takeReturnsResult : Obligations.TakeReturnsResult := by
  refine ⟨fun s rest hnext hstarted => ⟨fun hterminal => ⟨?_, rfl⟩, fun hother => ?_⟩,
    fun s t => step_taken⟩ <;> rw [step_take hnext hstarted]
  · rw [takeResult_terminal (s := s.setScript rest) ((isTerminal_iff s.st).mpr hterminal)]
    rfl
  · rw [takeResult_other (s := s.setScript rest)
      (Bool.eq_false_iff.mpr (mt (isTerminal_iff s.st).mp hother))]
    rfl

end Sys2Proof.Machine
end

section
/-! The exceptions: the order of VALIDATE's tests (R190) and what `raise` writes (R181). -/

namespace Sys2Proof.Machine

/-! ### VALIDATE -/

/-- Settles O9: one case for each test that can fail first, and one for a frame that passes all three. -/
theorem validateOrder : Obligations.ValidateOrder := by
  intro f
  rw [validate_eq]
  simp only [ne_eq, ite_not]
  generalize cksum [f.b1, f.b2, f.b3, f.b4, f.b5, f.b6, f.b7] = k
  split_ifs with hstart hecho hsum
  · simp [hstart, hecho, hsum]
  · simp [hstart, hecho, hsum]
  · simp [hstart, hecho]
  · simp [hstart]

/-! ### `raise` -/

/-- The terminal state of an error: only NoResponse and ShortRead have one of their own (R180). -/
theorem terminalOf_eq (e : ErrorKind) :
    terminalOf e = if e = .noResponse then .timedOut else if e = .shortRead then .shortRd else .done := by
  cases e <;> rfl

/-- A reader of `res.status` gets the error back from its code (R180). -/
@[simp] theorem readStatus_errorCode (e : ErrorKind) : readStatus (errorCode e) = some (some e) := by
  cases e <;> rfl

/-- Settles O42: by the equation of `raise`, with the terminal state written out. -/
theorem raiseWritesResultOnly : Obligations.RaiseWritesResultOnly := fun e s =>
  ⟨by rw [raise_eq, terminalOf_eq, errorResult], readStatus_errorCode e⟩

end Sys2Proof.Machine
end

section
/-! The decoder and the encoder are inverse to each other (R80 to R96). -/

namespace Sys2Proof.Machine

/-! ### Host words -/

/-- The four operation codes (R91). -/
theorem op_cases : ∀ op : BitVec 2, op = 0#2 ∨ op = 1#2 ∨ op = 2#2 ∨ op = 3#2 := by
  decide

theorem encode_decodeHost (op : BitVec 2) (en : Bool) : encode (decodeHost op en) = [hostWord op en] := by
  obtain rfl | rfl | rfl | rfl := op_cases op <;> rfl

theorem wellFormed_decodeHost (op : BitVec 2) (en : Bool) : WellFormed (decodeHost op en) = true := by
  obtain rfl | rfl | rfl | rfl := op_cases op <;> rfl

/-- A byte whose bits 7:3 are 0 is the host word of its other bits, so none of them is dropped (R96). -/
theorem hostWord_of_upperBits {b : Byte} (h : b.extractLsb' 3 5 = 0#5) :
    hostWord (b.extractLsb' 1 2) (b.getLsbD 0) = b := by
  have hsplit : b.extractLsb' 3 5 ++ b.extractLsb' 1 2 ++ BitVec.ofBool (b.getLsbD 0) = b := by
    ext i hi
    simp only [BitVec.getElem_append, BitVec.getElem_extractLsb', BitVec.getElem_ofBool]
    split_ifs with h0 h1
    · simp [show i = 0 by omega]
    · rw [show 1 + (i - 1) = i by omega, BitVec.getLsbD_eq_getElem hi]
    · rw [show 3 + (i - 1 - 2) = i by omega, BitVec.getLsbD_eq_getElem hi]
  rwa [h] at hsplit

/-! ### Bytes -/

/-- One byte that is accepted is the encoding of its instruction. -/
theorem encode_of_decodeByte {b : Byte} {i : Instr} (h : decodeByte b = .ok i) :
    WellFormed i = true ∧ encode i = [b] := by
  unfold decodeByte at h
  split_ifs at h with hhost hread hzero hspan habc hrange <;> cases h
  · exact ⟨wellFormed_decodeHost _ _, by rw [encode_decodeHost, hostWord_of_upperBits hhost]⟩
  · exact ⟨rfl, by rw [hread]; rfl⟩
  · exact ⟨rfl, by rw [hzero]; rfl⟩
  · exact ⟨rfl, by rw [hspan]; rfl⟩
  · exact ⟨rfl, by rw [habc]; rfl⟩
  · exact ⟨rfl, by rw [hrange]; rfl⟩

/-! ### Request frames -/

/-- R112: the checksum byte of a request that sums to zero is the one the encoder writes. -/
theorem checksum_of_requestSumsToZero {a c d0 k : Byte}
    (h : requestSumsToZero a c d0 0#8 0#8 0#8 0#8 k = true) : k = -(a + c + d0) := by
  have hsum : a + c + d0 + k = 0#8 := by simpa [requestSumsToZero] using h
  exact (neg_eq_of_add_eq_zero_right hsum).symm

/-- The request frames that have a row of their own are the three of R82. -/
theorem requestHasNoOwnRow_eq_false_iff (a c d0 d1 d2 d3 d4 : Byte) :
    requestHasNoOwnRow a c d0 d1 d2 d3 d4 = false ↔
      a = 0x01#8 ∧ d1 = 0#8 ∧ d2 = 0#8 ∧ d3 = 0#8 ∧ d4 = 0#8 ∧
        (c = 0x86#8 ∧ d0 = 0#8 ∨ c = 0x79#8 ∧ (d0 = 0xA0#8 ∨ d0 = 0#8)) := by
  simp only [requestHasNoOwnRow, Config.source, Bool.not_eq_false', Bool.and_eq_true, Bool.or_eq_true,
    beq_iff_eq, and_assoc]

/-- A request that is accepted is the encoding of its instruction. -/
theorem encode_of_decodeRequest {a c d0 d1 d2 d3 d4 k : Byte} {i : Instr}
    (hecho : a ≠ Config.source.expectedEcho) (h : decodeRequest a c d0 d1 d2 d3 d4 k = .ok i) :
    WellFormed i = true ∧ encode i = [Config.source.startByte, a, c, d0, d1, d2, d3, d4, k] := by
  unfold decodeRequest at h
  split_ifs at h with hsum hrow hread hon
  · cases h
    exact ⟨by simp [WellFormed, hsum, hrow, requestIsNotReply, hecho], rfl⟩
  all_goals
    cases h
    obtain ⟨rfl, rfl, rfl, rfl, rfl, hcmd⟩ :=
      (requestHasNoOwnRow_eq_false_iff a c d0 d1 d2 d3 d4).mp (Bool.eq_false_iff.mpr hrow)
    obtain rfl := checksum_of_requestSumsToZero hsum
  · obtain ⟨rfl, rfl⟩ | ⟨rfl, -⟩ := hcmd
    · exact ⟨rfl, rfl⟩
    · exact absurd hread (by decide)
  · obtain ⟨rfl, -⟩ | ⟨rfl, -⟩ := hcmd
    · exact absurd rfl hread
    · exact ⟨rfl, by rw [hon]; rfl⟩
  · obtain ⟨rfl, -⟩ | ⟨rfl, rfl | rfl⟩ := hcmd
    · exact absurd rfl hread
    · exact absurd rfl hon
    · exact ⟨rfl, rfl⟩

/-- Nine bytes that are accepted are the encoding of their instruction. -/
theorem encode_of_decodeFrame {b0 b1 b2 b3 b4 b5 b6 b7 b8 : Byte} {i : Instr}
    (h : decodeFrame b0 b1 b2 b3 b4 b5 b6 b7 b8 = .ok i) :
    WellFormed i = true ∧ encode i = [b0, b1, b2, b3, b4, b5, b6, b7, b8] := by
  unfold decodeFrame at h
  split_ifs at h with hstart hecho
  · cases h
    exact ⟨rfl, by rw [hstart, hecho]; rfl⟩
  · rw [hstart]
    exact encode_of_decodeRequest hecho h

/-- A well-formed generic request decodes to its own row: none of the other rows takes its bytes. -/
theorem decode_encode_req {a c d0 d1 d2 d3 d4 k : Byte}
    (h : WellFormed (.req a c d0 d1 d2 d3 d4 k) = true) :
    decode (encode (.req a c d0 d1 d2 d3 d4 k)) = .ok (.req a c d0 d1 d2 d3 d4 k) := by
  simp only [WellFormed, Bool.and_eq_true, requestIsNotReply, bne_iff_ne] at h
  obtain ⟨⟨hsum, hecho⟩, hrow⟩ := h
  simp only [encode, decode, decodeFrame, decodeRequest, hsum, hecho, hrow, if_true, if_false]

/-! ### The three statements -/

/-- Settles O1: one case per row; only the generic request needs its well-formedness. -/
theorem decodeEncodeRoundTrip : Obligations.DecodeEncodeRoundTrip := by
  intro i hwf
  cases i with
  | rdconc en => exact decode_hostWord 0#2 en
  | rdfull en => exact decode_hostWord 1#2 en
  | setabc en => exact decode_hostWord 2#2 en
  | rsvd en => exact decode_hostWord 3#2 en
  | cmdReadCo2 | cmdCalZero | cmdCalSpan | cmdSetAbc | cmdSetRange => rfl
  | reqReadCo2 | reqAbcOn | reqAbcOff => rfl
  | req => exact decode_encode_req hwf
  | rspReadCo2 => rfl

/-- Settles O2: only lists of one and of nine bytes are accepted, each by the rows of its length. -/
theorem decodedWordEncodesBack : Obligations.DecodedWordEncodesBack := by
  intro bytes i h
  unfold decode at h
  split at h
  · exact encode_of_decodeByte h
  · exact encode_of_decodeFrame h
  · cases h

/-- Settles O3: closed words, decoded by evaluation. -/
theorem tableWordsDecode : Obligations.TableWordsDecode := by
  unfold Obligations.TableWordsDecode
  decide

end Sys2Proof.Machine
end

section
/-! The invariant on counters, request, result and outcome (R35, R29, R180): reset meets it and every
step keeps it. -/

namespace Sys2Proof.Machine

/-! ### Each clause, from what it reads -/

section
variable {s t : State}

/-- R35 (1) and (2) with the source's interval of 5 and budget of 500. -/
theorem countersInv_iff (s : State) :
    CountersInv Config.source s ↔ s.dly.toNat ≤ 5 ∧ (s.st ≠ .waiting → s.dly = 0#8) ∧
      s.elapsed.toNat + s.dly.toNat ≤ 504 ∧ (s.st = .waiting → 5 ∣ s.elapsed.toNat + s.dly.toNat) :=
  Iff.rfl

theorem CountersInv.no_delay (h : CountersInv Config.source s) (hst : s.st ≠ .waiting) :
    s.dly = 0#8 := h.2.1 hst

theorem CountersInv.elapsed_add_dly_le (h : CountersInv Config.source s) :
    s.elapsed.toNat + s.dly.toNat ≤ 504 := h.2.2.1

theorem CountersInv.interval_dvd (h : CountersInv Config.source s) (hst : s.st = .waiting) :
    5 ∣ s.elapsed.toNat + s.dly.toNat := h.2.2.2 hst

/-- Outside Waiting the counters may be those of any state of the invariant that is in no delay. -/
theorem countersInv_outside_waiting (h : CountersInv Config.source s) (hidle : s.dly = 0#8)
    (hdly : t.dly = s.dly) (helapsed : t.elapsed = s.elapsed) (hst : t.st ≠ .waiting) :
    CountersInv Config.source t := by
  have hbound := h.elapsed_add_dly_le
  rw [countersInv_iff, hdly, helapsed, hidle]
  rw [hidle] at hbound
  exact ⟨by decide, fun _ => rfl, hbound, fun hwait => absurd hwait hst⟩

theorem countersInv_cleared (hdly : s.dly = 0#8) (helapsed : s.elapsed = 0#16) :
    CountersInv Config.source s := by
  simp [countersInv_iff, hdly, helapsed]

/-- The states that only a read operation enters (R35). -/
def ReadOnlyState (st : Fsm) : Prop :=
  st = .flushing ∨ st = .waiting ∨ st = .reading ∨ st = .timedOut ∨ st = .shortRd

theorem RequestInv.tx_values (h : RequestInv s) :
    s.tx = zeroFrame ∨ s.tx = readRequest ∨ s.tx = abcOnRequest ∨ s.tx = abcOffRequest := h.1

theorem RequestInv.read_op (h : RequestInv s) (hst : ReadOnlyState s.st) :
    s.op = 0#2 ∨ s.op = 1#2 := h.2.2.2.1 hst

theorem RequestInv.sending_op (h : RequestInv s) (hst : s.st = .sending) : s.op ≠ 3#2 :=
  h.2.2.2.2 hst

/-- The two codes that are left are those of the read operations (R91). -/
theorem op_read_of_ne : ∀ {op : BitVec 2}, op ≠ 2#2 → op ≠ 3#2 → op = 0#2 ∨ op = 1#2 := by
  decide

/-- A step that keeps the request and its operation needs a look at `st` alone. -/
theorem requestInv_of_same_request (h : RequestInv s) (hop : t.op = s.op) (htx : t.tx = s.tx)
    (hbusy : s.st ≠ .idle) (hread : ReadOnlyState t.st → s.op = 0#2 ∨ s.op = 1#2)
    (hsend : t.st = .sending → s.op ≠ 3#2) : RequestInv t := by
  obtain ⟨hvalues, hreadReq, habcReq, -, -⟩ := h
  unfold RequestInv
  rw [hop, htx]
  exact ⟨hvalues, fun _ => hreadReq hbusy, fun _ => habcReq hbusy, hread, hsend⟩

theorem resultInv_of_errorResult {e : ErrorKind} (h : s.res = errorResult e) : ResultInv s := by
  unfold ResultInv
  rw [h]
  cases e <;> decide

theorem resultInv_of_okResult (h : s.res = okResult) : ResultInv s := by
  unfold ResultInv
  rw [h]
  decide

theorem resultInv_of_same_res (h : ResultInv s) (hres : t.res = s.res) : ResultInv t := by
  unfold ResultInv
  rw [hres]
  exact h

theorem readResult_error {op : BitVec 2} {f : Frame} {e : ErrorKind}
    (hverdict : validate Config.source f = some e) : readResult Config.source op f = errorResult e := by
  rw [readResult, hverdict]

theorem readResult_rdconc {op : BitVec 2} {f : Frame} (hop : op = 0#2)
    (hvalid : validate Config.source f = none) :
    readResult Config.source op f = resultRdconc Config.source f := by
  simp only [readResult, hvalid, hop, if_true]

theorem readResult_rdfull {op : BitVec 2} {f : Frame} (hop : op ≠ 0#2)
    (hvalid : validate Config.source f = none) :
    readResult Config.source op f = resultRdfull Config.source f := by
  simp only [readResult, hvalid, hop, if_false]

theorem resultInv_of_resultRdconc {f : Frame} (h : s.res = resultRdconc Config.source f) :
    ResultInv s := by
  simp [ResultInv, h, resultRdconc]

/-- R29: a byte less the offset of 40 is a temperature from -40 to 215. -/
theorem resultInv_of_resultRdfull {f : Frame} (h : s.res = resultRdfull Config.source f) :
    ResultInv s := by
  have htemp : (decodeTemp Config.source f).toInt = (f.b4.toNat : Int) - 40 :=
    decodeTemp_toInt (by decide) f
  have hbyte : f.b4.toNat < 256 := f.b4.isLt
  simp only [ResultInv, h, resultRdfull, htemp]
  exact ⟨by decide, fun _ => trivial, fun hne => absurd rfl hne, by omega, by omega⟩

/-- R29: what a READ of nine bytes leaves in `res`. -/
theorem resultInv_of_readResult {op : BitVec 2} {f : Frame}
    (h : s.res = readResult Config.source op f) : ResultInv s := by
  cases hverdict : validate Config.source f with
  | some e => exact resultInv_of_errorResult (h.trans (readResult_error hverdict))
  | none =>
    by_cases hop : op = 0#2
    · exact resultInv_of_resultRdconc (h.trans (readResult_rdconc hop hverdict))
    · exact resultInv_of_resultRdfull (h.trans (readResult_rdfull hop hverdict))

/-- The verdicts of VALIDATE (R115). -/
theorem validate_verdicts {c : Config} {f : Frame} {e : ErrorKind} (h : validate c f = some e) :
    e = .badStartByte ∨ e = .badCommandEcho ∨ e = .checksumMismatch := by
  unfold validate at h
  split_ifs at h <;> simp_all

/-- The outcomes of a read operation that got nine bytes (R180). -/
theorem readResult_status (op : BitVec 2) (f : Frame) :
    (readResult Config.source op f).status = 0#3 ∨ (readResult Config.source op f).status = 2#3 ∨
      (readResult Config.source op f).status = 3#3 ∨ (readResult Config.source op f).status = 4#3 := by
  cases hverdict : validate Config.source f with
  | some e =>
    rw [readResult_error hverdict]
    obtain rfl | rfl | rfl := validate_verdicts hverdict <;> decide
  | none =>
    left
    by_cases hop : op = 0#2
    · rw [readResult_rdconc hop hverdict]; rfl
    · rw [readResult_rdfull hop hverdict]; rfl

/-- RDCONC leaves `temp` and `stat` 0 (R161). -/
theorem readResult_rdconc_fields (f : Frame) :
    (readResult Config.source 0#2 f).temp = 0#9 ∧ (readResult Config.source 0#2 f).stat = 0#8 := by
  unfold readResult
  cases validate Config.source f <;> exact ⟨rfl, rfl⟩

/-- RDFULL never warns (R162). -/
theorem readResult_rdfull_warn (f : Frame) : (readResult Config.source 1#2 f).warn = false := by
  unfold readResult
  cases validate Config.source f <;> rfl

theorem outcomeInv_of_not_terminal (h : isTerminal s.st = false) : OutcomeInv s := by
  cases hst : s.st <;> simp_all [OutcomeInv, isTerminal]

end

/-! ### One CORE step -/

theorem coreStep_countersInv (a : Answers) {s : State} (h : CountersInv Config.source s) :
    CountersInv Config.source (coreStep Config.source a s) := by
  have hto := coreStep_to a s
  generalize coreStep Config.source a s = t at hto ⊢
  cases hto with
  | rest => exact h
  | drained hst => exact countersInv_outside_waiting h (h.no_delay (by simp [hst])) rfl rfl (by simp)
  | dropped => exact h
  | sent => exact countersInv_cleared rfl rfl
  | data _ hdly => exact countersInv_outside_waiting h hdly rfl rfl (by simp)
  | expired _ hdly => exact countersInv_outside_waiting h hdly rfl rfl (by simp)
  | delayed hst hdly _ hleft =>
    have hleft : s.elapsed.toNat < 500 := hleft
    have hmultiple : 5 ∣ s.elapsed.toNat := by simpa [hdly] using h.interval_dvd hst
    have hfive : (BitVec.ofNat 8 Config.source.pollInterval).toNat = 5 := rfl
    simp only [countersInv_iff, hfive]
    exact ⟨le_rfl, fun hne => absurd hst hne, by omega, fun _ => by omega⟩
  | read hst => exact countersInv_outside_waiting h (h.no_delay (by simp [hst])) rfl rfl (by simp [afterRead])
  | short hst =>
    exact countersInv_outside_waiting h (h.no_delay (by simp [hst])) rfl rfl (by simp [afterShortRead])

theorem coreStep_requestInv (a : Answers) {s : State} (h : RequestInv s) :
    RequestInv (coreStep Config.source a s) := by
  have hto := coreStep_to a s
  generalize coreStep Config.source a s = t at hto ⊢
  cases hto with
  | rest => exact h
  | dropped => exact h
  | delayed => exact h
  | drained hst =>
    have hop := h.read_op (by simp [ReadOnlyState, hst])
    exact requestInv_of_same_request h rfl rfl (by simp [hst]) (fun _ => hop)
      (fun _ => by rcases hop with hop | hop <;> simp [hop])
  | sent hst =>
    have hop := h.sending_op hst
    refine requestInv_of_same_request h rfl rfl (by simp [hst]) (fun hnext => ?_) (fun _ => hop)
    by_cases habc : s.op = 2#2
    · simp [ReadOnlyState, afterSend, habc] at hnext
    · exact op_read_of_ne habc hop
  | data hst | expired hst | read hst | short hst =>
    have hop := h.read_op (by simp [ReadOnlyState, hst])
    exact requestInv_of_same_request h rfl rfl (by simp [hst]) (fun _ => hop)
      (by simp [afterRead, afterShortRead])

theorem coreStep_resultInv (a : Answers) {s : State} (h : ResultInv s) :
    ResultInv (coreStep Config.source a s) := by
  have hto := coreStep_to a s
  generalize coreStep Config.source a s = t at hto ⊢
  cases hto with
  | rest | drained | dropped | data | delayed => exact h
  | sent =>
    by_cases habc : s.op = 2#2
    · exact resultInv_of_okResult (by simp [afterSend, habc])
    · exact resultInv_of_same_res h (by simp [afterSend, habc])
  | expired => exact resultInv_of_errorResult (e := .noResponse) rfl
  | read _ f => exact resultInv_of_readResult (op := s.op) (f := f) (by rw [afterRead_eq])
  | short => exact resultInv_of_errorResult (e := .shortRead) rfl

/-- R180: an operation ends with an outcome of its row. -/
theorem coreStep_outcomeInv (a : Answers) {s : State} (hreq : RequestInv s) (h : OutcomeInv s) :
    OutcomeInv (coreStep Config.source a s) := by
  have hto := coreStep_to a s
  generalize coreStep Config.source a s = t at hto ⊢
  cases hto with
  | rest | dropped | delayed => exact h
  | drained | data => exact outcomeInv_of_not_terminal rfl
  | sent =>
    by_cases habc : s.op = 2#2
    · simp [OutcomeInv, afterSend, habc]
    · exact outcomeInv_of_not_terminal (by simp [afterSend, habc, isTerminal])
  | expired | short => simp [OutcomeInv, afterShortRead, errorResult, errorCode]
  | read hst f =>
    have hop := hreq.read_op (by simp [ReadOnlyState, hst])
    have hstatus := readResult_status s.op f
    rw [afterRead_eq]
    rcases hop with hop | hop <;> rw [hop] at hstatus
    · simp [OutcomeInv, hop, hstatus, readResult_rdconc_fields]
    · simp [OutcomeInv, hop, hstatus, readResult_rdfull_warn]

theorem coreStep_machineInv (a : Answers) {s : State} (h : MachineInv s) :
    MachineInv (coreStep Config.source a s) := by
  obtain ⟨hcounters, hrequest, hresult, houtcome⟩ := h
  exact ⟨coreStep_countersInv a hcounters, coreStep_requestInv a hrequest,
    coreStep_resultInv a hresult, coreStep_outcomeInv a hrequest houtcome⟩

/-! ### The other moves -/

/-- A tick counts one unit from `dly` over to `elapsed`, so their sum stays. -/
theorem tickStep_machineInv {s : State} (h : MachineInv s) : MachineInv (tickStep s) := by
  obtain ⟨hst, hdly, hstep⟩ | ⟨-, hstep⟩ := tickStep_cases s <;> rw [hstep]
  · obtain ⟨hcounters, hrest⟩ := h
    refine ⟨?_, hrest⟩
    rw [countersInv_iff] at hcounters ⊢
    obtain ⟨hdelay, -, hbound, hmultiple⟩ := hcounters
    have hmultiple := hmultiple hst
    have hdown : (s.dly - 1#8).toNat = s.dly.toNat - 1 := by bv_omega
    have hup : (s.elapsed + 1#16).toNat = s.elapsed.toNat + 1 := by bv_omega
    have hpos : s.dly.toNat ≠ 0 := by bv_omega
    simp only [hdown, hup]
    exact ⟨by omega, fun hne => absurd hst hne, by omega, fun _ => by omega⟩
  · exact h

theorem acceptRead_machineInv {op : BitVec 2} {s : State} (hop : op = 0#2 ∨ op = 1#2)
    (hidle : s.st = .idle) (h : MachineInv s) : MachineInv (acceptRead Config.source op s) := by
  obtain ⟨hcounters, -, hresult, -⟩ := h
  refine ⟨countersInv_outside_waiting hcounters (hcounters.no_delay (by simp [hidle])) rfl rfl
    (by simp [acceptRead_eq]), ?_, hresult, outcomeInv_of_not_terminal rfl⟩
  rcases hop with rfl | rfl <;> simp [RequestInv, acceptRead_eq]

theorem acceptSetabc_machineInv (en : Bool) {s : State} (hidle : s.st = .idle) (h : MachineInv s) :
    MachineInv (acceptSetabc Config.source en s) := by
  obtain ⟨hcounters, -, hresult, -⟩ := h
  refine ⟨countersInv_outside_waiting hcounters (hcounters.no_delay (by simp [hidle])) rfl rfl
    (by simp [acceptSetabc_eq]), ?_, hresult, outcomeInv_of_not_terminal rfl⟩
  cases en <;> simp [RequestInv, acceptSetabc_eq]

theorem acceptReserved_machineInv {s : State} (hidle : s.st = .idle) (h : MachineInv s) :
    MachineInv (acceptReserved s) := by
  obtain ⟨hcounters, hrequest, -, -⟩ := h
  refine ⟨countersInv_outside_waiting hcounters (hcounters.no_delay (by simp [hidle])) rfl rfl
    (by simp [acceptReserved_eq]), ?_, resultInv_of_errorResult (e := .illegalOp) rfl, ?_⟩
  · simpa [RequestInv, acceptReserved_eq] using hrequest.tx_values
  · simp [OutcomeInv, acceptReserved_eq]

theorem takeResult_machineInv {s : State} (h : MachineInv s) : MachineInv (takeResult s) := by
  cases hterminal : isTerminal s.st with
  | false => rwa [takeResult_other hterminal]
  | true =>
    obtain ⟨hcounters, hrequest, hresult, -⟩ := h
    have hleft : s.st ≠ .waiting := by rintro hst; simp [hst, isTerminal] at hterminal
    rw [takeResult_terminal hterminal]
    refine ⟨countersInv_outside_waiting hcounters (hcounters.no_delay hleft) rfl rfl (by simp), ?_, hresult,
      outcomeInv_of_not_terminal rfl⟩
    simpa [RequestInv] using hrequest.tx_values

theorem resetCore_machineInv (s : State) : MachineInv (resetCore s) :=
  ⟨countersInv_cleared rfl rfl, by simp [RequestInv, resetCore, State.reset],
    resultInv_of_okResult rfl, outcomeInv_of_not_terminal rfl⟩

theorem otherMove_machineInv (u : UserTxn) {s : State} (h : MachineInv s) : MachineInv (otherMove u s) := by
  cases u <;> exact h

theorem exec_machineInv {i : Instr} {s t : State} (hexec : exec i s = .next t) (h : MachineInv s) :
    MachineInv t := by
  obtain rfl | ⟨hidle, en, hword⟩ | ⟨-, rfl⟩ | ⟨bytes, rfl⟩ := exec_next hexec
  · exact h
  · obtain ⟨-, rfl⟩ | ⟨-, rfl⟩ | ⟨-, rfl⟩ | ⟨-, rfl⟩ := hword
    · exact acceptRead_machineInv (.inl rfl) hidle h
    · exact acceptRead_machineInv (.inr rfl) hidle h
    · exact acceptSetabc_machineInv en hidle h
    · exact acceptReserved_machineInv hidle h
  · exact coreStep_machineInv {} h
  · exact h

theorem perform_machineInv {m : Move} {s t : State} (hperform : perform m s = .next t)
    (h : MachineInv s) : MachineInv t := by
  obtain ⟨bytes, i, -, -, hexec⟩ | ⟨-, rfl⟩ | ⟨bytes, -, rfl⟩ | ⟨-, rfl⟩ | ⟨-, rfl⟩ | ⟨a, -, rfl⟩ |
    ⟨-, rfl⟩ | ⟨u, -, rfl⟩ | ⟨q, -, rfl⟩ := perform_next hperform
  · exact exec_machineInv hexec h
  · exact takeResult_machineInv h
  · exact h
  · exact tickStep_machineInv h
  · exact coreStep_machineInv {} h
  · exact coreStep_machineInv a h
  · exact resetCore_machineInv s
  · exact otherMove_machineInv u h
  · exact h

/-- Settles O49: CORE alone, or the first of the moves to come, keeps the invariant. -/
theorem invariantKeptByEveryStep : Obligations.InvariantKeptByEveryStep := by
  intro s t h hstep
  obtain ⟨-, -, rfl⟩ | ⟨m, rest, -, -, hperform⟩ := step_next hstep
  · exact coreStep_machineInv {} h
  · exact perform_machineInv hperform h

/-- Settles O50: the reset state is what `rst` makes of itself. -/
theorem invariantHoldsAtReset : Obligations.InvariantHoldsAtReset :=
  resetCore_machineInv State.reset

end Sys2Proof.Machine
end

section
/-! What a state keeps hidden (R24, R26, R167): a step from a state and a step from its visible part
cannot be told apart. -/

namespace Sys2Proof.Machine

/-! ### The visible part of a state -/

section
variable (s : State)

@[simp] theorem visible_st : (visible s).st = s.st := rfl
@[simp] theorem visible_started : (visible s).started = s.started := rfl
@[simp] theorem upcoming_visible : upcoming (visible s) = upcoming s := rfl
@[simp] theorem readyReply_visible (c : Config) : readyReply c (visible s) = readyReply c s := rfl
@[simp] theorem echoReady_visible (c : Config) (code : Byte) :
    echoReady c code (visible s) = echoReady c code s := rfl

theorem visible_setRxq (q : List Byte) : (visible s).setRxq q = visible (s.setRxq q) := rfl

/-- Erasing what no step can show once more erases nothing. -/
@[simp] theorem visible_visible : visible (visible s) = visible s := by
  cases hst : s.st <;> simp [visible, hst, isTerminal]

variable {s}

theorem visible_tx_sending (h : s.st = .sending) : (visible s).tx = s.tx := by
  simp [visible, h]

theorem visible_dly_waiting (h : s.st = .waiting) : (visible s).dly = s.dly := by
  simp [visible, h]

theorem visible_elapsed_waiting (h : s.st = .waiting) : (visible s).elapsed = s.elapsed := by
  simp [visible, h]

theorem visible_res_terminal (h : isTerminal s.st = true) : (visible s).res = s.res := by
  simp [visible, h]

theorem sending_visible_iff (p : Frame → Prop) :
    (visible s).st = .sending ∧ p (visible s).tx ↔ s.st = .sending ∧ p s.tx :=
  and_congr_right fun hst => by rw [visible_tx_sending (s := s) hst]

variable (s)

/-- Whether CORE has a step shows: `dly` is erased outside Waiting only. -/
@[simp] theorem coreEnabled_visible : coreEnabled (visible s) = coreEnabled s := by
  cases hst : s.st <;> simp [coreEnabled, visible, hst]

@[simp] theorem restOfScript_visible (m : Move) (rest : List Move) :
    restOfScript m rest (visible s) = restOfScript m rest s := by
  cases m <;> simp [restOfScript]

end

/-! ### CORE's steps -/

section
variable {a : Answers} {s : State}

/-- READ of nine bytes under any answers ends as R144 says. -/
theorem coreStep_reading_frame {f : Frame} (hst : s.st = .reading)
    (hbytes : tReadBytes a 9 s = frameBytes f) :
    coreStep Config.source a s = afterRead f (s.rxq.drop (readCount a 9 s)) s := by
  rw [coreStep_reading hst, afterRead_eq]
  obtain ⟨g, hg, hstep⟩ | ⟨hshort, -⟩ := readStep_cases a s
  · rwa [frameBytes_injective (hbytes.symm.trans hg)]
  · have hlen := congrArg List.length hbytes
    rw [tReadBytes_length, frameBytes_length] at hlen
    omega

theorem visible_coreStep_flushing (hst : s.st = .flushing) :
    visible (coreStep Config.source a (visible s)) = visible (coreStep Config.source a s) := by
  by_cases hnone : tAvail a s = 0
  · rw [coreStep_flushing_none (s := visible s) hst hnone, coreStep_flushing_none hst hnone]
    simp [visible, hst, isTerminal]
  · rw [coreStep_flushing_some (s := visible s) hst hnone, coreStep_flushing_some hst hnone]
    exact visible_visible { s with rxq := s.rxq.drop (readCount a 1 s) }

theorem visible_coreStep_sending (hst : s.st = .sending) :
    visible (coreStep Config.source a (visible s)) = visible (coreStep Config.source a s) := by
  rw [coreStep_sending (s := visible s) hst, coreStep_sending hst, sendStep_eq, sendStep_eq,
    visible_tx_sending hst]
  by_cases hop : s.op = 2#2 <;> simp [visible, hst, hop, isTerminal, tFlush, tWrite, flushCount]

theorem visible_coreStep_polling (hst : s.st = .waiting) (hdly : s.dly = 0#8) :
    visible (coreStep Config.source a (visible s)) = visible (coreStep Config.source a s) := by
  have hdly' : (visible s).dly = 0#8 := (visible_dly_waiting hst).trans hdly
  have helapsed := visible_elapsed_waiting hst
  by_cases hdata : 0 < tAvail a s
  · rw [coreStep_polling_data (s := visible s) hst hdly' hdata, coreStep_polling_data hst hdly hdata]
    simp [visible, hst, isTerminal]
  have hnone : tAvail a s = 0 := by omega
  by_cases hover : Config.source.timeoutBudget ≤ s.elapsed.toNat
  · rw [coreStep_polling_timeout (s := visible s) hst hdly' hnone (by rwa [helapsed]),
      coreStep_polling_timeout hst hdly hnone hover]
    simp [visible, isTerminal]
  · rw [coreStep_polling_delay (s := visible s) hst hdly' hnone (by rw [helapsed]; omega),
      coreStep_polling_delay hst hdly hnone (by omega)]
    simp [visible, hst, isTerminal]

theorem visible_coreStep_reading (hst : s.st = .reading) :
    visible (coreStep Config.source a (visible s)) = visible (coreStep Config.source a s) := by
  by_cases hshort : readCount a 9 s < 9
  · rw [coreStep_reading_short (s := visible s) hst hshort, coreStep_reading_short hst hshort]
    simp [visible, afterShortRead, isTerminal, readCount]
  · have hnine : readCount a 9 s = 9 := le_antisymm (readCount_le a 9 s) (by omega)
    obtain ⟨f, hbytes⟩ := exists_frameBytes ((tReadBytes_length a 9 s).trans hnine)
    rw [coreStep_reading_frame (s := visible s) hst hbytes, coreStep_reading_frame hst hbytes]
    simp [visible, afterRead, hst, isTerminal, readCount]

/-- What a CORE step shows of a state depends on its visible part alone. -/
theorem visible_coreStep (a : Answers) (s : State) :
    visible (coreStep Config.source a (visible s)) = visible (coreStep Config.source a s) := by
  cases henabled : coreEnabled s with
  | false =>
    rw [coreStep_disabled henabled, coreStep_disabled ((coreEnabled_visible s).trans henabled),
      visible_visible]
  | true =>
    cases hst : s.st
    case flushing => exact visible_coreStep_flushing hst
    case sending => exact visible_coreStep_sending hst
    case waiting => exact visible_coreStep_polling hst (by simpa [coreEnabled_waiting hst] using henabled)
    case reading => exact visible_coreStep_reading hst
    all_goals simp [coreEnabled, hst] at henabled

end

/-! ### The other moves -/

theorem visible_tickStep (s : State) : visible (tickStep (visible s)) = visible (tickStep s) := by
  by_cases hdelay : s.st = .waiting ∧ s.dly ≠ 0#8
  · obtain ⟨hst, hdly⟩ := hdelay
    rw [tickStep_delay (s := visible s) hst (by rwa [visible_dly_waiting hst]), tickStep_delay hst hdly]
    simp [visible, hst, isTerminal]
  · have hnot : s.st ≠ .waiting ∨ s.dly = 0#8 := by tauto
    have hnot' : (visible s).st ≠ .waiting ∨ (visible s).dly = 0#8 := by
      by_cases hst : s.st = .waiting
      · rwa [visible_dly_waiting hst]
      · exact .inl hst
    rw [tickStep_elsewhere hnot, tickStep_elsewhere hnot', visible_visible]

/-- H_TAKE shows `res`, and only in the states that keep it visible. -/
theorem visible_takeResult (s : State) : visible (takeResult (visible s)) = visible (takeResult s) := by
  cases hterminal : isTerminal s.st with
  | true =>
    rw [takeResult_terminal (s := visible s) hterminal, takeResult_terminal hterminal,
      visible_res_terminal hterminal]
    simp [visible, isTerminal]
  | false => rw [takeResult_other (s := visible s) hterminal, takeResult_other hterminal, visible_visible]

theorem visible_otherMove (u : UserTxn) (s : State) :
    visible (otherMove u (visible s)) = visible (otherMove u s) := by
  cases u with
  | avail => exact visible_visible s
  | read n => exact visible_visible (tRead {} n s)
  | write bytes => exact visible_visible (tWrite {} bytes s)
  | flush => exact visible_visible (tFlush {} s)

theorem visible_setRxq_visible (s : State) (q : List Byte) :
    visible ((visible s).setRxq q) = visible (s.setRxq q) := by
  rw [visible_setRxq, visible_visible]

/-! ### Words -/

/-- An accepting step writes all that is visible of the state it leads to. -/
theorem visible_offer {accept : State → State}
    (haccept : ∀ s, visible (accept (visible s)) = visible (accept s)) (s : State) :
    visible (offer accept (visible s)) = visible (offer accept s) := by
  by_cases hidle : s.st = .idle
  · rw [offer_idle (s := visible s) hidle, offer_idle hidle, haccept]
  · rw [offer_not_idle (s := visible s) hidle, offer_not_idle hidle, visible_visible]

theorem visible_acceptRead (op : BitVec 2) (s : State) :
    visible (acceptRead Config.source op (visible s)) = visible (acceptRead Config.source op s) := by
  simp [acceptRead_eq, visible, isTerminal]

theorem visible_acceptSetabc (en : Bool) (s : State) :
    visible (acceptSetabc Config.source en (visible s)) = visible (acceptSetabc Config.source en s) := by
  simp [acceptSetabc_eq, visible, isTerminal]

theorem visible_acceptReserved (s : State) :
    visible (acceptReserved (visible s)) = visible (acceptReserved s) := by
  simp [acceptReserved_eq, visible, isTerminal]

theorem visible_sendFrame (f : Frame) (s : State) :
    visible (sendFrame Config.source f (visible s)) = visible (sendFrame Config.source f s) := by
  unfold sendFrame
  simp only [sending_visible_iff (· = f)]
  split_ifs with hsend
  · obtain ⟨hst, -⟩ := hsend
    rw [← coreStep_sending hst, ← coreStep_sending (s := visible s) hst, visible_coreStep]
  · exact visible_visible s

theorem visible_receiveFrame (f : Frame) (s : State) :
    visible (receiveFrame Config.source f (visible s)) = visible (receiveFrame Config.source f s) := by
  unfold receiveFrame
  rw [readyReply_visible]
  split_ifs with hready
  · have hst := (readyReply_some hready).1
    rw [← coreStep_reading hst, ← coreStep_reading (s := visible s) hst, visible_coreStep]
  · exact visible_setRxq_visible s _

/-! ### Outcomes -/

/-- An outcome with what no later step can show erased from its next state. -/
def visibleOutcome : Host.Outcome State Fault Refusal → Host.Outcome State Fault Refusal
  | .next s => .next (visible s)
  | .fault f => .fault f
  | .refused r => .refused r

theorem sameOutcome_iff (o p : Host.Outcome State Fault Refusal) :
    SameOutcome o p ↔ visibleOutcome o = visibleOutcome p := by
  cases o <;> cases p <;> simp [SameOutcome, visibleOutcome]

theorem visibleOutcome_next {s t : State} (h : visible s = visible t) :
    visibleOutcome (.next s) = visibleOutcome (.next t) :=
  congrArg Host.Outcome.next h

theorem visible_sentCode (code : Byte) (s : State) :
    visibleOutcome (sentCode Config.source code (visible s)) =
      visibleOutcome (sentCode Config.source code s) := by
  unfold sentCode
  simp only [sending_visible_iff (·.b2 = code)]
  rw [echoReady_visible]
  split_ifs with hsend hecho
  · obtain ⟨hst, -⟩ := hsend
    rw [← coreStep_sending hst, ← coreStep_sending (s := visible s) hst]
    exact visibleOutcome_next (visible_coreStep {} s)
  · have hst := echoReady_reading hecho
    rw [← coreStep_reading hst, ← coreStep_reading (s := visible s) hst]
    exact visibleOutcome_next (visible_coreStep {} s)
  · exact visibleOutcome_next (visible_visible s)

theorem visible_unsentCode (code : Byte) (s : State) :
    visibleOutcome (unsentCode Config.source code (visible s)) =
      visibleOutcome (unsentCode Config.source code s) := by
  unfold unsentCode
  rw [echoReady_visible]
  split_ifs with hecho
  · have hst := echoReady_reading hecho
    rw [← coreStep_reading hst, ← coreStep_reading (s := visible s) hst]
    exact visibleOutcome_next (visible_coreStep {} s)
  · rfl

theorem visible_exec (i : Instr) (s : State) :
    visibleOutcome (exec i (visible s)) = visibleOutcome (exec i s) := by
  cases i with
  | rdconc => exact visibleOutcome_next (visible_offer (visible_acceptRead 0#2) s)
  | rdfull => exact visibleOutcome_next (visible_offer (visible_acceptRead 1#2) s)
  | setabc en => exact visibleOutcome_next (visible_offer (visible_acceptSetabc en) s)
  | rsvd => exact visibleOutcome_next (visible_offer visible_acceptReserved s)
  | cmdReadCo2 | cmdSetAbc => exact visible_sentCode _ s
  | cmdCalZero | cmdCalSpan | cmdSetRange => exact visible_unsentCode _ s
  | reqReadCo2 | reqAbcOn | reqAbcOff | req => exact visibleOutcome_next (visible_sendFrame _ s)
  | rspReadCo2 => exact visibleOutcome_next (visible_receiveFrame _ s)

theorem visible_coreMove (a : Answers) (s : State) :
    visibleOutcome (coreMove Config.source a (visible s)) = visibleOutcome (coreMove Config.source a s) := by
  unfold coreMove
  rw [coreEnabled_visible]
  split_ifs
  · rfl
  · exact visibleOutcome_next (visible_coreStep a s)

theorem visible_perform (m : Move) (s : State) :
    visibleOutcome (perform m (visible s)) = visibleOutcome (perform m s) := by
  cases m with
  | word bytes =>
    simp only [perform, execWord]
    cases decode bytes with
    | ok i => exact visible_exec i s
    | reject r => rfl
  | take => exact visibleOutcome_next (visible_takeResult s)
  | line bytes => exact visibleOutcome_next (visible_setRxq_visible s _)
  | tick => exact visibleOutcome_next (visible_tickStep s)
  | run => exact visible_coreMove {} s
  | core a => exact visible_coreMove a s
  | rst => rfl
  | other u => exact visibleOutcome_next (visible_otherMove u s)
  | corrupt q => exact visibleOutcome_next (visible_setRxq_visible s q)

theorem visible_coreAlone (s : State) :
    visibleOutcome (coreAlone (visible s)) = visibleOutcome (coreAlone s) := by
  unfold coreAlone
  rw [visible_started]
  split_ifs
  · exact visible_coreMove {} s
  · rfl

theorem visible_takeMove (m : Move) (rest : List Move) (s : State) :
    visibleOutcome (takeMove m rest (visible s)) = visibleOutcome (takeMove m rest s) := by
  unfold takeMove
  rw [visible_started, restOfScript_visible]
  split_ifs
  · rfl
  · exact visible_perform m (s.setScript (restOfScript m rest s))

/-- A step shows nothing but what the visible part of a state determines. -/
theorem visible_step (s : State) : visibleOutcome (step (visible s)) = visibleOutcome (step s) := by
  simp only [step, source_valid, Bool.not_true, Bool.false_eq_true, if_false, upcoming_visible]
  cases upcoming s with
  | nil => exact visible_coreAlone s
  | cons m rest => exact visible_takeMove m rest s

/-- Settles O56: both states take the step of their common visible part. -/
theorem hiddenRegistersNeverMatter : Obligations.HiddenRegistersNeverMatter := by
  intro s t hsame
  rw [sameOutcome_iff]
  calc visibleOutcome (step s)
      = visibleOutcome (step (visible s)) := (visible_step s).symm
    _ = visibleOutcome (step (visible t)) := by rw [hsame]
    _ = visibleOutcome (step t) := visible_step t

end Sys2Proof.Machine
end

section
/-! The checksum (R111, R112, R118) and the frames it makes valid (R114, R116, R229). -/

namespace Sys2Proof.Machine

/-! ### The accumulator -/

/-- CKSUM's loop from any seed adds the bytes' sum to it. -/
theorem foldl_add_eq_add_sum (bs : List Byte) (seed : Byte) :
    bs.foldl (fun acc b => acc + b) seed = seed + bs.sum := by
  induction bs generalizing seed with
  | nil => simp
  | cons b bs ih => rw [List.foldl_cons, ih, List.sum_cons, add_assoc]

theorem cksumAcc_eq_sum (bs : List Byte) : cksumAcc bs = bs.sum :=
  (foldl_add_eq_add_sum bs 0#8).trans (BitVec.zero_add _)

/-- R112: the checksum is what brings the sum to zero. -/
theorem cksum_eq_neg_sum (bs : List Byte) : cksum bs = -bs.sum := by
  rw [cksum, cksumAcc_eq_sum, BitVec.neg_eq_not_add]

theorem eq_cksum_iff (k : Byte) (bs : List Byte) : k = cksum bs ↔ bs.sum + k = 0 := by
  rw [cksum_eq_neg_sum, eq_neg_iff_add_eq_zero, add_comm]

/-- The sum of seven bytes and an eighth, written out. -/
theorem sum_seven_add (b1 b2 b3 b4 b5 b6 b7 k : Byte) :
    [b1, b2, b3, b4, b5, b6, b7].sum + k = b1 + b2 + b3 + b4 + b5 + b6 + b7 + k := by
  simp [add_assoc]

/-- A sum of eight bytes is zero exactly when their unbounded sum is a multiple of 256. -/
theorem sum_eight_eq_zero_iff (b1 b2 b3 b4 b5 b6 b7 b8 : Byte) :
    b1 + b2 + b3 + b4 + b5 + b6 + b7 + b8 = 0 ↔
      (b1.toNat + b2.toNat + b3.toNat + b4.toNat + b5.toNat + b6.toNat + b7.toNat + b8.toNat) % 256 = 0 := by
  rw [← BitVec.toNat_inj]
  simp

/-- Settles O6: the checksum is the negated sum, and 256 divides every power of two from the eleventh on. -/
theorem checksumClosedForms : Obligations.ChecksumClosedForms := by
  intro b1 b2 b3 b4 b5 b6 b7 S k
  have hacc : (cksumAcc [b1, b2, b3, b4, b5, b6, b7]).toNat = S % 256 := by
    simp [cksumAcc, S]
  have hk : k.toNat = (256 - S % 256) % 256 := by
    have hneg : k = -cksumAcc [b1, b2, b3, b4, b5, b6, b7] := by
      rw [cksumAcc_eq_sum]; exact cksum_eq_neg_sum _
    rw [hneg, BitVec.toNat_neg, hacc]
  refine ⟨hacc, hk, fun j => ?_, fun w hw => ?_⟩
  · rw [eq_cksum_iff, sum_seven_add, sum_eight_eq_zero_iff]
  · obtain ⟨n, rfl⟩ := Nat.exists_eq_add_of_le hw
    have hpow : 2 ^ (11 + n) = 256 * (8 * 2 ^ n) := by rw [pow_add]; ring
    have hpos : 0 < 2 ^ n := by positivity
    have hS : S ≤ 1785 := by omega
    rw [hk, hpow]
    omega

/-- Settles O7: the checksum is the negated sum, which no order of the bytes changes. -/
theorem checksumOrderAndSeed : Obligations.ChecksumOrderAndSeed := by
  refine ⟨fun bs cs hperm => ?_, fun bs seed => ?_⟩
  · rw [cksum_eq_neg_sum, cksum_eq_neg_sum, hperm.sum_eq]
  · calc ~~~(bs.foldl (fun acc b => acc + b) seed) + 1
        = -(seed + bs.sum) := by rw [foldl_add_eq_add_sum]; exact (BitVec.neg_eq_not_add _).symm
      _ = cksum bs - seed := by rw [cksum_eq_neg_sum, neg_add_rev, ← sub_eq_add_neg]

/-! ### Built frames -/

/-- Settles O5: closed frames, built by evaluation. -/
theorem requestFramesOfHostOperations : Obligations.RequestFramesOfHostOperations :=
  ⟨rfl, rfl, rfl⟩

/-- R116 (a): VALIDATE answers OK exactly when the frame starts FF 86 and bytes 1 to 8 sum to zero. -/
theorem validate_eq_none_iff (f : Frame) :
    validate Config.source f = none ↔
      f.b0 = 0xFF#8 ∧ f.b1 = 0x86#8 ∧ f.b1 + f.b2 + f.b3 + f.b4 + f.b5 + f.b6 + f.b7 + f.b8 = 0 := by
  obtain ⟨-, -, -, hvalid⟩ := validateOrder f
  rw [hvalid, eq_cksum_iff, sum_seven_add]

/-- A frame that starts FF 86 and does not sum to zero is rejected for its checksum. -/
theorem validate_eq_checksumMismatch_iff (f : Frame) :
    validate Config.source f = some .checksumMismatch ↔
      f.b0 = 0xFF#8 ∧ f.b1 = 0x86#8 ∧ f.b1 + f.b2 + f.b3 + f.b4 + f.b5 + f.b6 + f.b7 + f.b8 ≠ 0 := by
  obtain ⟨-, -, hmismatch, -⟩ := validateOrder f
  rw [hmismatch, ne_eq, eq_cksum_iff, sum_seven_add]

/-- A frame that starts FF but not FF 86 is rejected for its echo. -/
theorem validate_eq_badCommandEcho {f : Frame} (hstart : f.b0 = 0xFF#8) (hecho : f.b1 ≠ 0x86#8) :
    validate Config.source f = some .badCommandEcho := by
  obtain ⟨-, hbadEcho, -, -⟩ := validateOrder f
  exact hbadEcho.mpr ⟨hstart, hecho⟩

/-- R114 (a): bytes 1 to 8 of a built frame sum to zero. -/
theorem build_sum (a c d0 d1 d2 d3 d4 : Byte) :
    a + c + d0 + d1 + d2 + d3 + d4 + cksum [a, c, d0, d1, d2, d3, d4] = 0 := by
  rw [← sum_seven_add, ← eq_cksum_iff]

/-- Settles O8: BUILD stores the byte that brings the sum to zero, behind its operands as they are. -/
theorem buildProperties : Obligations.BuildProperties := by
  intro a c d0 d1 d2 d3 d4
  rw [build_eq]
  refine ⟨rfl, (sum_eight_eq_zero_iff ..).mp (build_sum a c d0 d1 d2 d3 d4), rfl, ?_, ?_, ?_⟩
  · intro a' c' e0 e1 e2 e3 e4 hsame
    rw [build_eq] at hsame
    simp only [Frame.mk.injEq] at hsame
    tauto
  · simp [validate_eq_none_iff, build_sum]
  · exact fun hecho => validate_eq_badCommandEcho rfl hecho

/-! ### Valid replies -/

/-- Settles O10: the sum condition over the integers, and the one checksum byte that meets it. -/
theorem validFramesSumToZero : Obligations.ValidFramesSumToZero := by
  refine ⟨fun f => ?_, fun b2 b3 b4 b5 b6 b7 => ?_⟩
  · rw [validate_eq_none_iff, sum_eight_eq_zero_iff]
  · have hiff (b8 : Byte) : validate Config.source ⟨0xFF, 0x86, b2, b3, b4, b5, b6, b7, b8⟩ = none ↔
        b8 = cksum [0x86, b2, b3, b4, b5, b6, b7] := by
      rw [validate_eq_none_iff, eq_cksum_iff, sum_seven_add]
      exact ⟨fun h => h.2.2, fun h => ⟨rfl, rfl, h⟩⟩
    simp only [hiff, existsUnique_eq]

/-- R116 (c), (d): with the first two bytes of a valid reply only the sum of bytes 2 to 8 counts. -/
theorem validate_eq_none_iff_same_sum {f g : Frame} (hvalid : validate Config.source f = none)
    (h0 : g.b0 = f.b0) (h1 : g.b1 = f.b1) :
    validate Config.source g = none ↔
      g.b2 + g.b3 + g.b4 + g.b5 + g.b6 + g.b7 + g.b8 = f.b2 + f.b3 + f.b4 + f.b5 + f.b6 + f.b7 + f.b8 := by
  rw [validate_eq_none_iff] at hvalid ⊢
  obtain ⟨hstart, hecho, hsum⟩ := hvalid
  simp only [h0, h1, hstart, hecho, true_and]
  rw [hecho] at hsum
  rw [← hsum]
  simp only [add_assoc, add_right_inj]

/-- Settles O12: the equivalence above. -/
theorem compensatingChangesUndetected : Obligations.CompensatingChangesUndetected :=
  fun _ _ => validate_eq_none_iff_same_sum

/-- R116 (c): a change of bytes 2 to 8 that changes their sum is a checksum mismatch. -/
theorem validate_of_changed_sum {f g : Frame} (hvalid : validate Config.source f = none)
    (h0 : g.b0 = f.b0) (h1 : g.b1 = f.b1)
    (hsum : g.b2 + g.b3 + g.b4 + g.b5 + g.b6 + g.b7 + g.b8 ≠
      f.b2 + f.b3 + f.b4 + f.b5 + f.b6 + f.b7 + f.b8) :
    validate Config.source g = some .checksumMismatch := by
  obtain ⟨hstart, hecho, -⟩ := (validate_eq_none_iff f).mp hvalid
  have hinvalid := mt (validate_eq_none_iff_same_sum hvalid h0 h1).mp hsum
  rw [validate_eq_none_iff] at hinvalid
  rw [validate_eq_checksumMismatch_iff]
  exact ⟨h0.trans hstart, h1.trans hecho,
    fun hzero => hinvalid ⟨h0.trans hstart, h1.trans hecho, hzero⟩⟩

/-- R116 (c): another byte 0 is a bad start byte, whatever follows. -/
theorem validate_eq_badStartByte {f : Frame} (hstart : f.b0 ≠ 0xFF#8) :
    validate Config.source f = some .badStartByte := by
  obtain ⟨hbadStart, -, -, -⟩ := validateOrder f
  exact hbadStart.mpr hstart

/-- Settles O11: one case per byte; a change of one summand changes the sum. -/
theorem singleByteCorruptionDetected : Obligations.SingleByteCorruptionDetected := by
  rintro ⟨b0, b1, b2, b3, b4, b5, b6, b7, b8⟩ i v hi hvalid hchanged
  obtain ⟨hstart, hecho, -⟩ := (validate_eq_none_iff _).mp hvalid
  have hother {b : Byte} (hb : memRead ⟨b0, b1, b2, b3, b4, b5, b6, b7, b8⟩ i 1 = [b]) : v ≠ b := by
    rintro rfl
    exact hchanged hb
  interval_cases i
  · exact validate_eq_badStartByte fun hv => hother rfl (hv.trans hstart.symm)
  · exact validate_eq_badCommandEcho hstart fun hv => hother rfl (hv.trans hecho.symm)
  all_goals
    refine validate_of_changed_sum hvalid rfl rfl fun hsum => hother rfl ?_
    simpa only [memWrite, frameBytes, frameOf, List.take_succ_cons, List.take_zero, List.drop_succ_cons,
      List.drop_zero, List.length_cons, List.length_nil, List.cons_append, List.nil_append, add_left_inj,
      add_right_inj] using hsum

end Sys2Proof.Machine
end

section
/-! The 37-bit result word (R29): where its fields stand, and that they are all it holds. -/

namespace Sys2Proof.Machine

/-- R29 bit by bit: each of the 37 bits is a bit of the field that stands there. -/
theorem packResult_getLsbD (r : Result) (i : Nat) :
    (packResult r).getLsbD i =
      if i < 3 then r.status.getLsbD i
      else if i < 4 then r.warn
      else if i < 20 then r.ppm.getLsbD (i - 4)
      else if i < 29 then r.temp.getLsbD (i - 20)
      else r.stat.getLsbD (i - 29) := by
  have hstatus (h : 3 ≤ i) : r.status.getLsbD i = false := BitVec.getLsbD_of_ge _ _ h
  have hppm (h : 20 ≤ i) : r.ppm.getLsbD (i - 4) = false := BitVec.getLsbD_of_ge _ _ (by omega)
  have htemp (h : 29 ≤ i) : r.temp.getLsbD (i - 20) = false := BitVec.getLsbD_of_ge _ _ (by omega)
  have hstat (h : 37 ≤ i) : r.stat.getLsbD (i - 29) = false := BitVec.getLsbD_of_ge _ _ (by omega)
  simp only [packResult, BitVec.getLsbD_or, BitVec.getLsbD_shiftLeft, BitVec.getLsbD_setWidth,
    BitVec.getLsbD_ofBool]
  grind

theorem packResult_fields (r : Result) :
    (packResult r).extractLsb' 0 3 = r.status ∧ (packResult r).getLsbD 3 = r.warn ∧
    (packResult r).extractLsb' 4 16 = r.ppm ∧ (packResult r).extractLsb' 20 9 = r.temp ∧
    (packResult r).extractLsb' 29 8 = r.stat := by
  refine ⟨?_, packResult_getLsbD r 3, ?_, ?_, ?_⟩ <;> ext i hi <;>
    rw [BitVec.getElem_extractLsb', packResult_getLsbD]
  · rw [if_pos (by omega), Nat.zero_add, BitVec.getLsbD_eq_getElem]
  · rw [if_neg (by omega), if_neg (by omega), if_pos (by omega), Nat.add_sub_cancel_left,
      BitVec.getLsbD_eq_getElem]
  · rw [if_neg (by omega), if_neg (by omega), if_neg (by omega), if_pos (by omega),
      Nat.add_sub_cancel_left, BitVec.getLsbD_eq_getElem]
  · rw [if_neg (by omega), if_neg (by omega), if_neg (by omega), if_neg (by omega),
      Nat.add_sub_cancel_left, BitVec.getLsbD_eq_getElem]

theorem unpackResult_packResult (r : Result) : unpackResult (packResult r) = r := by
  obtain ⟨hstatus, hwarn, hppm, htemp, hstat⟩ := packResult_fields r
  rw [unpackResult, hstatus, hwarn, hppm, htemp, hstat]

theorem packResult_unpackResult (w : BitVec 37) : packResult (unpackResult w) = w := by
  apply BitVec.eq_of_getLsbD_eq
  intro i hi
  rw [packResult_getLsbD]
  simp only [unpackResult, BitVec.getLsbD_extractLsb']
  grind

/-- Settles O14: both directions bit by bit. -/
theorem resultWordLayout : Obligations.ResultWordLayout := by
  refine ⟨fun r => ?_, packResult_unpackResult⟩
  obtain ⟨hstatus, hwarn, hppm, htemp, hstat⟩ := packResult_fields r
  exact ⟨hstatus, hwarn, hppm, htemp, hstat, unpackResult_packResult r⟩

end Sys2Proof.Machine
end

section
/-! The words of the wire (R80 to R94): where a frame or a command code crosses the transport interface,
and where it does not. -/

namespace Sys2Proof.Machine

/-! ### Request frames -/

section
variable {f : Frame} {s : State}

theorem sendFrame_sent (hst : s.st = .sending) (htx : s.tx = f) :
    sendFrame Config.source f s = afterSend s := by
  obtain ⟨-, -, hsend⟩ | ⟨hnot, -⟩ := sendFrame_cases f s
  · rw [hsend, coreStep_sending_contract hst]
  · exact absurd ⟨hst, htx⟩ hnot

theorem sendFrame_elsewhere (hnot : s.st ≠ .sending ∨ s.tx ≠ f) : sendFrame Config.source f s = s := by
  obtain ⟨hst, htx, -⟩ | ⟨-, hsame⟩ := sendFrame_cases f s
  · exact absurd hnot (by simp [hst, htx])
  · exact hsame

end

section
variable (s : State)

theorem exec_reqReadCo2 :
    exec .reqReadCo2 s = .next (sendFrame Config.source readRequest s) := rfl

theorem exec_reqAbcOn :
    exec .reqAbcOn s = .next (sendFrame Config.source abcOnRequest s) := rfl

theorem exec_reqAbcOff :
    exec .reqAbcOff s = .next (sendFrame Config.source abcOffRequest s) := rfl

theorem exec_req (a c d0 d1 d2 d3 d4 k : Byte) :
    exec (.req a c d0 d1 d2 d3 d4 k) s =
      .next (sendFrame Config.source ⟨0xFF#8, a, c, d0, d1, d2, d3, d4, k⟩ s) := rfl

theorem exec_rspReadCo2 (hh ll tt ss xx yy kk : Byte) :
    exec (.rspReadCo2 hh ll tt ss xx yy kk) s =
      .next (receiveFrame Config.source ⟨0xFF#8, 0x86#8, hh, ll, tt, ss, xx, yy, kk⟩ s) := rfl

end

/-- Settles O28: every request row is the SEND step where its frame is the one in `tx`. -/
theorem requestFrameIsSent : Obligations.RequestFrameIsSent := by
  refine ⟨fun s hst htx => ?_, fun s hst htx => ?_, fun s hst htx => ?_,
    fun a c d0 d1 d2 d3 d4 k s hst htx => ?_⟩
  · rw [exec_reqReadCo2, sendFrame_sent hst htx]
  · rw [exec_reqAbcOn, sendFrame_sent hst htx]
  · rw [exec_reqAbcOff, sendFrame_sent hst htx]
  · rw [exec_req, sendFrame_sent hst htx]

/-- Settles O29: no request row does anything elsewhere. -/
theorem requestFrameNotSentElsewhere : Obligations.RequestFrameNotSentElsewhere := by
  refine ⟨fun s hnot => ?_, fun s hnot => ?_, fun s hnot => ?_, fun a c d0 d1 d2 d3 d4 k s hnot => ?_⟩
  · rw [exec_reqReadCo2, sendFrame_elsewhere hnot]
  · rw [exec_reqAbcOn, sendFrame_elsewhere hnot]
  · rw [exec_reqAbcOff, sendFrame_elsewhere hnot]
  · rw [exec_req, sendFrame_elsewhere hnot]

/-! ### Reply frames -/

/-- Nine bytes at the head of a queue, and what is behind them. -/
theorem frameBytes_append_iff_take (f : Frame) (q : List Byte) :
    q.take 9 = frameBytes f ↔ q = frameBytes f ++ q.drop 9 := by
  constructor
  · intro h
    rw [← h, List.take_append_drop]
  · intro h
    rw [h, List.take_left' (frameBytes_length f)]

/-- The reply that CORE is about to read is the nine bytes at the head of the queue in Reading. -/
theorem readyReply_eq_some_iff (f : Frame) (s : State) :
    readyReply Config.source s = some f ↔ s.st = .reading ∧ s.rxq.take 9 = frameBytes f := by
  rw [frameBytes_append_iff_take]
  exact ⟨readyReply_some, fun ⟨hst, hqueue⟩ => readyReply_frame hst hqueue⟩

/-- Settles O33: a reply that is not the one about to be read joins the queue. -/
theorem replyFrameIsDelivered : Obligations.ReplyFrameIsDelivered := by
  intro hh ll tt ss xx yy kk s hnot
  have hnotReady : readyReply Config.source s ≠ some ⟨0xFF#8, 0x86#8, hh, ll, tt, ss, xx, yy, kk⟩ := by
    rw [ne_eq, readyReply_eq_some_iff]
    rintro ⟨hst, hqueue⟩
    exact hnot.elim (absurd hst) (absurd hqueue)
  rw [exec_rspReadCo2, receiveFrame, if_neg hnotReady]
  rfl

/-- The result of a READ whose frame starts FF 86: its checksum decides (R144). -/
theorem readResult_reply (op : BitVec 2) {f : Frame} (hstart : f.b0 = 0xFF#8) (hecho : f.b1 = 0x86#8) :
    readResult Config.source op f =
      if f.b1 + f.b2 + f.b3 + f.b4 + f.b5 + f.b6 + f.b7 + f.b8 ≠ 0#8 then errorResult .checksumMismatch
      else if op = 0#2 then resultRdconc Config.source f
      else resultRdfull Config.source f := by
  split_ifs with hsum hop
  · exact readResult_error ((validate_eq_checksumMismatch_iff f).mpr ⟨hstart, hecho, hsum⟩)
  · exact readResult_rdconc hop ((validate_eq_none_iff f).mpr ⟨hstart, hecho, not_not.mp hsum⟩)
  · exact readResult_rdfull hop ((validate_eq_none_iff f).mpr ⟨hstart, hecho, not_not.mp hsum⟩)

/-- Where VALIDATE comes to its third test, `acc` holds the sum of bytes 1 to 7 (R115). -/
theorem validateAcc_reply {f : Frame} (hstart : f.b0 = 0xFF#8) (hecho : f.b1 = 0x86#8) (acc : Byte) :
    validateAcc Config.source f acc = f.b1 + f.b2 + f.b3 + f.b4 + f.b5 + f.b6 + f.b7 :=
  calc validateAcc Config.source f acc
      = cksumAcc [f.b1, f.b2, f.b3, f.b4, f.b5, f.b6, f.b7] := if_pos ⟨hstart, hecho⟩
    _ = f.b1 + f.b2 + f.b3 + f.b4 + f.b5 + f.b6 + f.b7 := by simp [cksumAcc]

/-- A frame that is the one about to be read crosses in the READ step (R143). -/
theorem receiveFrame_read {f : Frame} {rest : List Byte} {s : State} (hst : s.st = .reading)
    (hqueue : s.rxq = frameBytes f ++ rest) : receiveFrame Config.source f s = afterRead f rest s := by
  rw [receiveFrame, if_pos (readyReply_frame hst hqueue), ← coreStep_reading hst,
    coreStep_reading_whole hst hqueue]

/-- Settles O34: the reply at the head of the queue is read, and its first two bytes pass. -/
theorem replyFrameIsRead : Obligations.ReplyFrameIsRead := by
  intro hh ll tt ss xx yy kk rest s hst hqueue
  rw [exec_rspReadCo2, receiveFrame_read hst hqueue, afterRead_eq, validateAcc_reply rfl rfl,
    readResult_reply s.op rfl rfl]
  rfl

/-! ### Command codes -/

theorem echoReady_of_readyReply {code : Byte} {s : State} {f : Frame}
    (hready : readyReply Config.source s = some f) :
    echoReady Config.source code s = (f.b0 == 0xFF#8 && f.b1 == code) := by
  rw [echoReady, hready]
  rfl

/-- A code is about to be read exactly where the nine bytes at the head of the queue in Reading start with
START_BYTE and the code. -/
theorem echoReady_iff (code : Byte) (s : State) :
    echoReady Config.source code s = true ↔
      s.st = .reading ∧ 9 ≤ s.rxq.length ∧ s.rxq[0]? = some 0xFF#8 ∧ s.rxq[1]? = some code := by
  cases hready : readyReply Config.source s with
  | none =>
    have hnot : ¬(s.st = .reading ∧ 9 ≤ s.rxq.length) := by
      rintro ⟨hst, hlen⟩
      obtain ⟨f, hf⟩ := exists_frameBytes (List.length_take_of_le hlen)
      rw [(readyReply_eq_some_iff f s).mpr ⟨hst, hf⟩] at hready
      cases hready
    simp only [echoReady, hready, Bool.false_eq_true, false_iff]
    tauto
  | some f =>
    obtain ⟨hst, hqueue⟩ := readyReply_some hready
    have h0 : s.rxq[0]? = some f.b0 := by rw [hqueue]; rfl
    have h1 : s.rxq[1]? = some f.b1 := by rw [hqueue]; rfl
    have hlen : 9 ≤ s.rxq.length := by rw [hqueue]; simp
    simp [echoReady_of_readyReply hready, hst, hlen, h0, h1]

theorem echoReady_frame {code : Byte} {s : State} {f : Frame} {rest : List Byte} (hst : s.st = .reading)
    (hqueue : s.rxq = frameBytes f ++ rest) (hstart : f.b0 = 0xFF#8) (hcode : f.b1 = code) :
    echoReady Config.source code s = true := by
  rw [echoReady_iff, hqueue]
  exact ⟨hst, by simp, congrArg some hstart, congrArg some hcode⟩

section
variable {code : Byte} {s : State}

theorem sentCode_sent (hst : s.st = .sending) (hcode : s.tx.b2 = code) :
    sentCode Config.source code s = .next (afterSend s) := by
  rw [sentCode, if_pos ⟨hst, hcode⟩, ← coreStep_sending hst, coreStep_sending_contract hst]

theorem sentCode_echoed {f : Frame} {rest : List Byte} (hst : s.st = .reading)
    (hqueue : s.rxq = frameBytes f ++ rest) (hstart : f.b0 = 0xFF#8) (hcode : f.b1 = code) :
    sentCode Config.source code s = .next (afterRead f rest s) := by
  have hecho := echoReady_frame hst hqueue hstart hcode
  rw [sentCode, if_neg (by simp [hst]), if_pos hecho, ← coreStep_reading hst,
    coreStep_reading_whole hst hqueue]

theorem unsentCode_echoed {f : Frame} {rest : List Byte} (hst : s.st = .reading)
    (hqueue : s.rxq = frameBytes f ++ rest) (hstart : f.b0 = 0xFF#8) (hcode : f.b1 = code) :
    unsentCode Config.source code s = .next (afterRead f rest s) := by
  have hecho := echoReady_frame hst hqueue hstart hcode
  rw [unsentCode, if_pos hecho, ← coreStep_reading hst, coreStep_reading_whole hst hqueue]

/-- Where no reply that echoes the code is about to be read. -/
theorem echoReady_eq_false (hnot : s.st ≠ .reading ∨ s.rxq.length < 9 ∨ s.rxq[0]? ≠ some 0xFF#8 ∨
    s.rxq[1]? ≠ some code) : ¬echoReady Config.source code s = true := by
  rw [echoReady_iff]
  rintro ⟨hst, hlen, hstart, hcode⟩
  obtain h | h | h | h := hnot
  · exact h hst
  · omega
  · exact h hstart
  · exact h hcode

end

/-- A reply with another echo than READ_CO2's is rejected (R93). -/
theorem afterRead_badEcho {f : Frame} (rest : List Byte) (s : State) (hstart : f.b0 = 0xFF#8)
    (hecho : f.b1 ≠ 0x86#8) :
    afterRead f rest s = { s with
      rxq := rest, rx := f, acc := validateAcc Config.source f s.acc
      res := errorResult .badCommandEcho, st := .done } := by
  rw [afterRead_eq, readResult_error (validate_eq_badCommandEcho hstart hecho)]

/-- Settles O30: both codes cross in SEND as byte 2 of the request. -/
theorem sentCodesCross : Obligations.SentCodesCross :=
  fun _ hst => ⟨sentCode_sent hst, sentCode_sent hst⟩

/-- Settles O31: every code crosses in READ as byte 1 of the reply, and only one is the accepted echo. -/
theorem echoedCodesCross : Obligations.EchoedCodesCross := by
  intro s f rest hst hqueue hstart
  refine ⟨sentCode_echoed hst hqueue hstart, fun i code hrow hcode => ?_⟩
  simp only [List.mem_cons, List.not_mem_nil, or_false, Prod.mk.injEq] at hrow
  have hrejected (hne : code ≠ 0x86#8) := afterRead_badEcho rest s hstart (hcode.trans_ne hne)
  obtain ⟨rfl, rfl⟩ | ⟨rfl, rfl⟩ | ⟨rfl, rfl⟩ | ⟨rfl, rfl⟩ := hrow
  · exact (sentCode_echoed hst hqueue hstart hcode).trans (congrArg _ (hrejected (by decide)))
  all_goals exact (unsentCode_echoed hst hqueue hstart hcode).trans (congrArg _ (hrejected (by decide)))

/-- Settles O32: a code that is never sent needs a reply that echoes it. -/
theorem neverSentCodesRefused : Obligations.NeverSentCodesRefused := by
  intro s i code hrow hnot
  have hrefused : unsentCode Config.source code s = .refused (.neverSent code) :=
    if_neg (echoReady_eq_false hnot)
  simp only [List.mem_cons, List.not_mem_nil, or_false, Prod.mk.injEq] at hrow
  obtain ⟨rfl, rfl⟩ | ⟨rfl, rfl⟩ | ⟨rfl, rfl⟩ := hrow <;> exact hrefused

/-- Settles O57: a code that is sent needs a request that carries it or a reply that echoes it. -/
theorem sentCodesChangeNothingElsewhere : Obligations.SentCodesChangeNothingElsewhere := by
  intro s i code hrow hnotSent hnotEchoed
  have hsame : sentCode Config.source code s = .next s := by
    rw [sentCode, if_neg (by tauto), if_neg (echoReady_eq_false hnotEchoed)]
  simp only [List.mem_cons, List.not_mem_nil, or_false, Prod.mk.injEq] at hrow
  obtain ⟨rfl, rfl⟩ | ⟨rfl, rfl⟩ := hrow <;> exact hsame

end Sys2Proof.Machine
end

section
/-! What each kind of move does in a step (R11, R61, R97, R210, R213). -/

namespace Sys2Proof.Machine

/-! ### One equation per kind of move -/

section
variable {s : State} {rest : List Move}

theorem step_word {bytes : List Byte} (hnext : upcoming s = .word bytes :: rest)
    (hstarted : s.started = true) : step s = execWord bytes { s with script := rest } :=
  step_move hnext hstarted

theorem execWord_ok {bytes : List Byte} {i : Instr} (hdecode : decode bytes = .ok i) (s : State) :
    execWord bytes s = exec i s := by
  rw [execWord, hdecode]

theorem coreMove_returns {c : Config} {a : Answers} (hreturns : a.returns = true) (s : State) :
    coreMove c a s = .next (coreStep c a s) := by
  simp [coreMove, hreturns]

theorem step_core {a : Answers} (hnext : upcoming s = .core a :: rest) (hstarted : s.started = true) :
    step s = coreMove Config.source a { s with script := rest } :=
  step_move hnext hstarted

theorem step_run {rest' : List Move} (hnext : upcoming s = .run :: rest) (hstarted : s.started = true)
    (hrest : restOfScript .run rest s = rest') :
    step s = .next (coreStep Config.source {} { s with script := rest' }) := by
  rw [step_move hnext hstarted, hrest]
  exact coreMove_returns rfl _

/-- A move in which CORE takes no part is taken by a block that was never reset too. -/
theorem step_without_core {m : Move} (hnext : upcoming s = m :: rest) (hm : involvesCore m = false) :
    step s = perform m (s.setScript (restOfScript m rest s)) := by
  simp [step, source_valid, hnext, takeMove, hm]

/-- A move in which CORE takes part has no meaning before the first reset. -/
theorem step_neverReset {m : Move} (hnext : upcoming s = m :: rest) (hm : involvesCore m = true)
    (hnever : s.started = false) : step s = .refused .neverReset := by
  simp [step, source_valid, hnext, takeMove, hm, hnever]

end

/-! ### The statements about words and CORE's own steps -/

/-- Settles O15: the decoder's answer picks the instruction that is run. -/
theorem stepRunsDecodedWord : Obligations.StepRunsDecodedWord := by
  intro s bytes rest i hnext hstarted hdecode
  rw [step_word hnext hstarted, execWord_ok hdecode]

/-- Settles O16: the decoder's reason is the refusal's. -/
theorem stepRefusesUnknownWord : Obligations.StepRefusesUnknownWord := by
  intro s bytes rest r hnext hstarted hdecode
  rw [step_word hnext hstarted, execWord, hdecode]

/-- Settles O17: one case per move that brings a CORE step; RUN's last one is no CORE step. -/
theorem stepRunsCore : Obligations.StepRunsCore := by
  intro s rest hstarted
  refine ⟨fun a hnext hreturns => ?_, fun hnext henabled => ?_, fun hnext hdisabled => ?_,
    fun hnext => step_alone hnext hstarted⟩
  · rw [step_core hnext hstarted, coreMove_returns hreturns]
  · exact step_run hnext hstarted (if_pos henabled)
  · rw [step_run hnext hstarted (rest' := rest) (by simp [restOfScript, hdisabled])]
    exact congrArg _ (coreStep_disabled hdisabled)

/-- Settles O18: the CORE step whose transaction does not return faults. -/
theorem stuckTransportFaults : Obligations.StuckTransportFaults := by
  intro s a rest hnext hstarted henabled hstuck
  have henabled' : coreEnabled { s with script := rest } = true := henabled
  rw [step_core hnext hstarted]
  simp [coreMove, henabled', hstuck]

/-- Settles O19: every move but the last four involves CORE, and those four are taken. -/
theorem neverResetIsRefused : Obligations.NeverResetIsRefused := by
  intro s rest hnever
  refine ⟨fun hnext => by simp [step, source_valid, hnext, coreAlone, hnever],
    fun bytes hnext => step_neverReset hnext rfl hnever, fun hnext => step_neverReset hnext rfl hnever,
    fun hnext => step_neverReset hnext rfl hnever, fun hnext => step_neverReset hnext rfl hnever,
    fun a hnext => step_neverReset hnext rfl hnever,
    fun bytes hnext => ⟨_, step_without_core hnext rfl, hnever⟩,
    fun u hnext => ⟨_, step_without_core hnext rfl, ?_⟩,
    fun q hnext => ⟨_, step_without_core hnext rfl, hnever⟩,
    fun hnext => ⟨_, step_without_core hnext rfl, rfl⟩⟩
  cases u <;> exact hnever

/-! ### HOST's moves while CORE is busy -/

/-- Every instruction a host word decodes to is one of the four host rows. -/
theorem decodeHost_mem (op : BitVec 2) (en : Bool) :
    decodeHost op en ∈ [.rdconc en, .rdfull en, .setabc en, .rsvd en] := by
  obtain rfl | rfl | rfl | rfl := op_cases op <;> simp [decodeHost]

/-- Settles O26: H_TAKE is enabled in the terminal states alone and H_CMD in Idle alone. -/
theorem noAbort : Obligations.NoAbort := by
  rintro s m rest hnext hstarted hbusy hrunning (rfl | ⟨op, en, rfl⟩)
  · rw [step_take hnext hstarted, takeResult_other (s := s.setScript rest) hrunning]
    rfl
  · obtain ⟨hsame, -⟩ := exec_hostWord_busy (s := { s with script := rest }) (decodeHost_mem op en)
      ((busy_iff s).mp hbusy)
    rw [step_word hnext hstarted, execWord_ok (decode_hostWord op en), hsame]

/-! ### Reset, LINE and the other users -/

/-- Settles O51: the reset values, by evaluation. -/
theorem resetValues : Obligations.ResetValues := by
  unfold Obligations.ResetValues
  decide

/-- Settles O52: `rst` needs no earlier reset. -/
theorem resetFromAnyState : Obligations.ResetFromAnyState :=
  fun _ _ hnext => step_without_core hnext rfl

/-- Settles O53: LINE's move does not involve CORE. -/
theorem lineOnlyAppends : Obligations.LineOnlyAppends :=
  fun _ _ _ hnext => step_without_core hnext rfl

theorem otherMove_read (n : Nat) (s : State) :
    otherMove (.read n) s = { s with rxq := s.rxq.drop n } := by
  have hdrop : s.rxq.drop (readCount {} n s) = s.rxq.drop n := by
    rw [readCount_contract, List.drop_eq_drop_iff, min_assoc, min_self]
  rw [otherMove, tRead_eq, hdrop]

theorem otherMove_write (v : List Byte) (s : State) :
    otherMove (.write v) s = { s with txpend := s.txpend ++ v } := by
  simp [otherMove, tWrite, State.setTxpend]

theorem otherMove_flush (s : State) :
    otherMove .flush s = { s with wire := s.wire ++ s.txpend, txpend := [] } := by
  simp [otherMove, tFlush, State.setWire, State.setTxpend]

/-- Settles O54: another user's transactions are those of the transport under the contract. -/
theorem otherUserTouchesQueuesOnly : Obligations.OtherUserTouchesQueuesOnly := by
  refine fun s rest => ⟨fun n hnext => ?_, fun v hnext => ?_, fun hnext => ?_,
    fun hnext => step_without_core hnext rfl⟩ <;> rw [step_without_core hnext rfl]
  · exact congrArg _ (otherMove_read n _)
  · exact congrArg _ (otherMove_write v _)
  · exact congrArg _ (otherMove_flush _)

end Sys2Proof.Machine
end

section
/-! What a step of the machine leaves: the transition relation (R131), the terminal states (R147), and the
transport's queues (R34, R65, R136). -/

namespace Sys2Proof.Machine

/-! ### The transition relation -/

/-- Every change of `st` in a CORE step is a row of the table with its condition. -/
theorem coreStep_transition {m : Option Move} {s : State} (hrequest : RequestInv s)
    (hmoved : (coreStep Config.source (answersOf m) s).st ≠ s.st) :
    Transition s m (coreStep Config.source (answersOf m) s) := by
  have hto := coreStep_to (answersOf m) s
  generalize coreStep Config.source (answersOf m) s = t at hto hmoved ⊢
  cases hto with
  | rest | dropped | delayed => exact absurd rfl hmoved
  | drained hst hnone => simpa [Transition, hst] using hnone
  | sent hst =>
    have hreserved := hrequest.sending_op hst
    by_cases hop : s.op = 2#2
    · simp [Transition, hst, afterSend, hop]
    · simpa [Transition, hst, afterSend, hop] using op_read_of_ne hop hreserved
  | data hst hdly hdata => simpa [Transition, hst] using ⟨hdly, hdata⟩
  | expired hst hdly hnone hover => simpa [Transition, hst] using ⟨hdly, hnone, hover⟩
  | read hst f hbytes => simp [Transition, hst, afterRead, hbytes]
  | short hst hshort => simpa [Transition, hst, afterShortRead] using hshort

/-- Only `rst` and H_TAKE lead to Idle. -/
theorem transition_to_idle {m : Option Move} {s t : State} (ht : t.st = .idle) (hs : s.st ≠ .idle)
    (hm : m = some .rst ∨ isTerminal s.st = true ∧ m = some .take) : Transition s m t := by
  cases hst : s.st <;> simp_all [Transition]

/-- An accepted host word is a row of the table, and so is every word that is a CORE step. -/
theorem exec_transition {bytes : List Byte} {i : Instr} {s t : State} (hdecode : decode bytes = .ok i)
    (hexec : exec i s = .next t) (hrequest : RequestInv s) (hmoved : t.st ≠ s.st) :
    Transition s (some (.word bytes)) t := by
  obtain rfl | ⟨hidle, en, hword⟩ | ⟨-, rfl⟩ | ⟨added, rfl⟩ := exec_next hexec
  · exact absurd rfl hmoved
  · obtain ⟨rfl, rfl⟩ | ⟨rfl, rfl⟩ | ⟨rfl, rfl⟩ | ⟨rfl, rfl⟩ := hword
    · simp [Transition, hidle, acceptRead_eq, hdecode]
    · simp [Transition, hidle, acceptRead_eq, hdecode]
    · simp [Transition, hidle, acceptSetabc_eq, hdecode]
    · simp [Transition, hidle, acceptReserved_eq, hdecode]
  · exact coreStep_transition (m := some (.word bytes)) hrequest hmoved
  · exact absurd rfl hmoved

theorem perform_transition {m : Move} {s t : State} (hperform : perform m s = .next t)
    (hrequest : RequestInv s) (hmoved : t.st ≠ s.st) : Transition s (some m) t := by
  obtain ⟨bytes, i, rfl, hdecode, hexec⟩ | ⟨rfl, rfl⟩ | ⟨bytes, rfl, rfl⟩ | ⟨rfl, rfl⟩ | ⟨rfl, rfl⟩ |
    ⟨a, rfl, rfl⟩ | ⟨rfl, rfl⟩ | ⟨u, rfl, rfl⟩ | ⟨q, rfl, rfl⟩ := perform_next hperform
  · exact exec_transition hdecode hexec hrequest hmoved
  · cases hterminal : isTerminal s.st with
    | false => rw [takeResult_other hterminal] at hmoved; exact absurd rfl hmoved
    | true =>
      have hidle : (takeResult s).st = .idle := by rw [takeResult_terminal hterminal]
      exact transition_to_idle hidle (hidle ▸ hmoved.symm) (.inr ⟨hterminal, rfl⟩)
  · exact absurd rfl hmoved
  · obtain ⟨-, -, hstep⟩ | ⟨-, hstep⟩ := tickStep_cases s <;> rw [hstep] at hmoved <;>
      exact absurd rfl hmoved
  · exact coreStep_transition (m := some .run) hrequest hmoved
  · exact coreStep_transition (m := some (.core a)) hrequest hmoved
  · exact transition_to_idle rfl hmoved.symm (.inl rfl)
  · cases u <;> exact absurd rfl hmoved
  · exact absurd rfl hmoved

/-- Settles O43: the invariant shuts out Sending with the reserved code, every other change has its row. -/
theorem transitionRelationComplete : Obligations.TransitionRelationComplete := by
  rintro s t ⟨-, hrequest, -, -⟩ hstep hmoved
  obtain ⟨hnext, -, rfl⟩ | ⟨m, rest, hnext, -, hperform⟩ := step_next hstep <;> rw [hnext]
  · exact coreStep_transition (m := none) hrequest hmoved
  · exact perform_transition (s := s.setScript (restOfScript m rest s)) hperform hrequest hmoved

/-! ### The terminal states -/

theorem coreEnabled_terminal {s : State} (h : isTerminal s.st = true) : coreEnabled s = false := by
  cases hst : s.st <;> simp_all [isTerminal, coreEnabled]

/-- What CORE holds in a terminal state: its eight registers, and HOST's copies. -/
def SameRegisters (s t : State) : Prop :=
  t.st = s.st ∧ t.op = s.op ∧ t.tx = s.tx ∧ t.rx = s.rx ∧ t.acc = s.acc ∧
    t.elapsed = s.elapsed ∧ t.dly = s.dly ∧ t.res = s.res ∧ t.taken = s.taken

theorem sameRegisters_refl (s : State) : SameRegisters s s :=
  ⟨rfl, rfl, rfl, rfl, rfl, rfl, rfl, rfl, rfl⟩

theorem sameRegisters_otherMove (u : UserTxn) (s : State) : SameRegisters s (otherMove u s) := by
  cases u <;> exact sameRegisters_refl s

/-- In a terminal state a word joins the queue at most. -/
theorem exec_terminal {i : Instr} {s t : State} (hexec : exec i s = .next t)
    (hterminal : isTerminal s.st = true) : SameRegisters s t := by
  obtain rfl | ⟨hidle, -⟩ | ⟨henabled, -⟩ | ⟨bytes, rfl⟩ := exec_next hexec
  · exact sameRegisters_refl t
  · simp [hidle, isTerminal] at hterminal
  · simp [coreEnabled_terminal hterminal] at henabled
  · exact sameRegisters_refl s

/-- In a terminal state only H_TAKE and `rst` change a register. -/
theorem perform_terminal {m : Move} {s t : State} (hperform : perform m s = .next t)
    (hterminal : isTerminal s.st = true) (htake : m ≠ .take) (hrst : m ≠ .rst) : SameRegisters s t := by
  have hcore (a : Answers) : coreStep Config.source a s = s :=
    coreStep_disabled (coreEnabled_terminal hterminal)
  obtain ⟨bytes, i, -, -, hexec⟩ | ⟨hm, -⟩ | ⟨bytes, -, rfl⟩ | ⟨-, rfl⟩ | ⟨-, rfl⟩ | ⟨a, -, rfl⟩ |
    ⟨hm, -⟩ | ⟨u, -, rfl⟩ | ⟨q, -, rfl⟩ := perform_next hperform
  · exact exec_terminal hexec hterminal
  · exact absurd hm htake
  · exact sameRegisters_refl s
  · have hst : s.st ≠ .waiting := by rintro hst; simp [hst, isTerminal] at hterminal
    rw [tickStep_elsewhere (.inl hst)]
    exact sameRegisters_refl s
  · rw [hcore]; exact sameRegisters_refl s
  · rw [hcore]; exact sameRegisters_refl s
  · exact absurd hm hrst
  · exact sameRegisters_otherMove u s
  · exact sameRegisters_refl s

/-- Settles O44: no CORE step is enabled, and every move but the two keeps the registers. -/
theorem terminalStatesHold : Obligations.TerminalStatesHold := by
  intro s t hstep hterminal htake hrst
  have hdisabled := coreEnabled_terminal hterminal
  refine ⟨hdisabled, fun a => coreTxns_disabled hdisabled, ?_⟩
  obtain ⟨-, -, rfl⟩ | ⟨m, rest, hnext, -, hperform⟩ := step_next hstep
  · rw [coreStep_disabled hdisabled]
    exact sameRegisters_refl s
  · rw [hnext] at htake hrst
    exact perform_terminal (s := s.setScript (restOfScript m rest s)) hperform hterminal
      (by simpa using htake) (by simpa using hrst)

/-! ### The wire -/

/-- The wire and the pending output of two states are the same. -/
def SameOutput (s t : State) : Prop := t.wire = s.wire ∧ t.txpend = s.txpend

/-- A step that is the SEND step, with all that R135 says of the output. -/
def IsSend (s t : State) : Prop :=
  s.st = .sending ∧ t.st ≠ .sending ∧ t.wire = s.wire ++ s.txpend ++ frameBytes s.tx ∧ t.txpend = []

/-- Under the contract a CORE step outside Sending leaves the output as it was. -/
theorem coreStep_output (s : State) :
    IsSend s (coreStep Config.source {} s) ∨ SameOutput s (coreStep Config.source {} s) := by
  by_cases hst : s.st = .sending
  · left
    rw [coreStep_sending_contract hst]
    refine ⟨hst, ?_, rfl, rfl⟩
    by_cases hop : s.op = 2#2 <;> simp [afterSend, hop]
  · right
    have hto := coreStep_to {} s
    generalize coreStep Config.source {} s = t at hto ⊢
    cases hto with
    | sent hsend => exact absurd hsend hst
    | _ => exact ⟨rfl, rfl⟩

theorem exec_output {i : Instr} {s t : State} (hexec : exec i s = .next t) :
    IsSend s t ∨ SameOutput s t := by
  obtain rfl | ⟨-, en, hword⟩ | ⟨-, rfl⟩ | ⟨bytes, rfl⟩ := exec_next hexec
  · exact .inr ⟨rfl, rfl⟩
  · obtain ⟨-, rfl⟩ | ⟨-, rfl⟩ | ⟨-, rfl⟩ | ⟨-, rfl⟩ := hword <;> exact .inr ⟨rfl, rfl⟩
  · exact coreStep_output s
  · exact .inr ⟨rfl, rfl⟩

theorem takeResult_output (s : State) : SameOutput s (takeResult s) := by
  cases hterminal : isTerminal s.st with
  | true => rw [takeResult_terminal hterminal]; exact ⟨rfl, rfl⟩
  | false => rw [takeResult_other hterminal]; exact ⟨rfl, rfl⟩

theorem tickStep_output (s : State) : SameOutput s (tickStep s) := by
  obtain ⟨-, -, hstep⟩ | ⟨-, hstep⟩ := tickStep_cases s <;> rw [hstep] <;> exact ⟨rfl, rfl⟩

/-- Answers that keep TC1 to TC4 and TC6 are the contract's. -/
theorem answers_of_keepsContract {s : State} {a : Answers} (h : KeepsContract s (some (.core a))) :
    a = {} := by
  obtain ⟨havail, hread, ⟨hwrite, hwritten⟩, hflush, -, hreturns, -⟩ := h
  cases a
  simp_all [answersOf, tc1, tc2, tc4]

/-- A move of the contract other than another user's leaves the output as it was, or is SEND. -/
theorem perform_output {m : Move} {s t : State} (hperform : perform m s = .next t)
    (hcontract : KeepsContract s (some m)) (hother : ∀ u, m ≠ .other u) :
    IsSend s t ∨ SameOutput s t := by
  obtain ⟨bytes, i, -, -, hexec⟩ | ⟨-, rfl⟩ | ⟨bytes, -, rfl⟩ | ⟨-, rfl⟩ | ⟨-, rfl⟩ | ⟨a, rfl, rfl⟩ |
    ⟨-, rfl⟩ | ⟨u, rfl, -⟩ | ⟨q, -, rfl⟩ := perform_next hperform
  · exact exec_output hexec
  · exact .inr (takeResult_output s)
  · exact .inr ⟨rfl, rfl⟩
  · exact .inr (tickStep_output s)
  · exact coreStep_output s
  · rw [answers_of_keepsContract hcontract]
    exact coreStep_output s
  · exact .inr ⟨rfl, rfl⟩
  · exact absurd rfl (hother u)
  · exact .inr ⟨rfl, rfl⟩

/-- Settles O45: CORE alone, or the first of the moves to come, sends in SEND only. -/
theorem wireGrowsOnlyInSend : Obligations.WireGrowsOnlyInSend := by
  intro s t hstep hcontract hother
  obtain ⟨-, -, rfl⟩ | ⟨m, rest, hnext, -, hperform⟩ := step_next hstep
  · exact coreStep_output s
  · rw [hnext] at hcontract hother
    exact perform_output (s := s.setScript (restOfScript m rest s)) hperform hcontract
      (fun u hm => hother u (congrArg some hm))

/-! ### The transactions of a CORE step -/

/-- The parts of a state that belong to the transport, to HOST and to the agents' moves. -/
def SameOutside (t q s : State) : Prop :=
  t.rxq = q.rxq ∧ t.txpend = q.txpend ∧ t.wire = q.wire ∧ t.taken = s.taken ∧ t.script = s.script ∧
    t.cycle = s.cycle

/-- R65: the queues after a CORE step are what its transactions make of them, in their order. -/
theorem coreStep_txns (a : Answers) (s : State) :
    SameOutside (coreStep Config.source a s) ((coreTxns Config.source a s).foldl applyTxn s) s := by
  have hto := coreStep_to a s
  generalize coreStep Config.source a s = t at hto ⊢
  unfold SameOutside
  cases hto with
  | rest hdisabled => simp [coreTxns_disabled hdisabled]
  | drained hst hnone => simp [coreTxns, hst, hnone, applyTxn]
  | dropped hst hsome => simp [coreTxns, hst, hsome, applyTxn]
  | sent hst => simp [coreTxns, hst, applyTxn, tFlush, tWrite, afterSend]
  | data hst hdly | expired hst hdly | delayed hst hdly => simp [coreTxns, hst, hdly, applyTxn]
  | read hst | short hst => simp [coreTxns, hst, applyTxn, afterRead, afterShortRead]

/-- Settles O46: the queues by the transactions of each branch, SETABC's two by SEND. -/
theorem transactionsAccountForQueues : Obligations.TransactionsAccountForQueues := by
  intro a s
  obtain ⟨hrxq, htxpend, hwire, htaken, hscript, hcycle⟩ := coreStep_txns a s
  exact ⟨hrxq, htxpend, hwire, htaken, hscript, hcycle, fun _ hst => coreTxns_sending a hst⟩

end Sys2Proof.Machine
end

section
/-! Runs: how long Waiting lasts (R142), that an operation ends where LINE is silent (R130, R169), and the two
waits without end (R222, R227). -/

namespace Sys2Proof.Machine

/-! ### Waiting with a silent LINE -/

/-- The rounds of Waiting, the last one named apart. -/
theorem delayRounds_succ (c : Config) (n : Nat) (s : State) :
    delayRounds c (n + 1) s = ticks c.pollInterval (coreStep c {} (delayRounds c n s)) := by
  induction n generalizing s with
  | zero => rfl
  | succ n ih => exact ih (ticks c.pollInterval (coreStep c {} s))

/-- The constraints of R7 on the two parameters of Waiting. -/
theorem valid_bounds {c : Config} (h : c.valid = true) :
    1 ≤ c.pollInterval ∧ c.pollInterval ≤ 255 ∧ c.timeoutBudget + c.pollInterval - 1 ≤ 65535 := by
  simp only [Config.valid, decide_eq_true_eq] at h
  tauto

section
variable {c : Config} {s : State}

/-- One round: a POLL that finds nothing, and the ticks of the delay it loads. -/
theorem ticks_poll (hP : c.pollInterval ≤ 255) (hst : s.st = .waiting) (hdly : s.dly = 0#8)
    (hqueue : s.rxq = []) (hleft : s.elapsed.toNat < c.timeoutBudget) :
    ticks c.pollInterval (coreStep c {} s) =
      { s with elapsed := s.elapsed + BitVec.ofNat 16 c.pollInterval } := by
  have hcount : (BitVec.ofNat 8 c.pollInterval).toNat = c.pollInterval := by
    rw [BitVec.toNat_ofNat]; omega
  have hwhole := ticks_delay (n := c.pollInterval) (s := { s with dly := BitVec.ofNat 8 c.pollInterval })
    hst hcount.ge
  rw [coreStep_polling_delay hst hdly (by rw [tAvail_contract, hqueue, List.length_nil]) hleft, hwhole,
    BitVec.sub_self, ← hdly]

/-- The number of the last poll: its time is the first multiple of the interval that reaches the budget. -/
def lastPoll (c : Config) : Nat := (c.timeoutBudget + c.pollInterval - 1) / c.pollInterval

theorem timeoutBudget_le_lastPoll (hpos : 1 ≤ c.pollInterval) :
    c.timeoutBudget ≤ c.pollInterval * lastPoll c := by
  have hdiv := Nat.div_add_mod (c.timeoutBudget + c.pollInterval - 1) c.pollInterval
  have hmod := Nat.mod_lt (c.timeoutBudget + c.pollInterval - 1) hpos
  rw [← lastPoll] at hdiv
  omega

/-- Up to the last poll `elapsed` counts without wrapping. -/
theorem elapsed_of_poll {j : Nat} (hvalid : c.valid = true) (hj : j ≤ lastPoll c) :
    (BitVec.ofNat 16 (c.pollInterval * j)).toNat = c.pollInterval * j := by
  obtain ⟨hpos, -, hfits⟩ := valid_bounds hvalid
  have hle := (Nat.le_div_iff_mul_le hpos).mp hj
  rw [BitVec.toNat_ofNat, Nat.mul_comm]
  omega

/-- Before the last poll the budget is not used up. -/
theorem poll_lt_timeoutBudget {j : Nat} (hpos : 1 ≤ c.pollInterval) (hj : j < lastPoll c) :
    c.pollInterval * j < c.timeoutBudget := by
  have hle := (Nat.le_div_iff_mul_le hpos).mp hj
  rw [Nat.succ_mul, Nat.mul_comm] at hle
  omega

/-- R142: after `j` silent rounds the state is as at the start but for `elapsed`. -/
theorem delayRounds_eq {j : Nat} (hvalid : c.valid = true) (hst : s.st = .waiting) (hdly : s.dly = 0#8)
    (helapsed : s.elapsed = 0#16) (hqueue : s.rxq = []) (hj : j ≤ lastPoll c) :
    delayRounds c j s = { s with elapsed := BitVec.ofNat 16 (c.pollInterval * j) } := by
  obtain ⟨hpos, hP, -⟩ := valid_bounds hvalid
  induction j with
  | zero => rw [Nat.mul_zero, ← helapsed]; rfl
  | succ j ih =>
    have hleft := (elapsed_of_poll hvalid (Nat.le_of_succ_le hj)).trans_lt (poll_lt_timeoutBudget hpos hj)
    rw [delayRounds_succ, ih (Nat.le_of_succ_le hj),
      ticks_poll (s := { s with elapsed := BitVec.ofNat 16 (c.pollInterval * j) }) hP hst hdly hqueue hleft,
      Nat.mul_succ, BitVec.ofNat_add]

end

/-- Settles O47: by the state after `j` rounds, whose POLL takes data first and ends in TimedOut at the last
poll. -/
theorem waitingIsBounded : Obligations.WaitingIsBounded := by
  intro c s hvalid hst hdly helapsed hqueue
  have hround {j : Nat} (hj : j ≤ lastPoll c) := delayRounds_eq hvalid hst hdly helapsed hqueue hj
  refine ⟨fun j hj => ⟨hround hj, fun q hq => ?_⟩, ?_⟩
  · rw [hround hj]
    exact congrArg State.st (coreStep_polling_data (c := c) (a := {})
      (s := { s with elapsed := BitVec.ofNat 16 (c.pollInterval * j), rxq := q }) hst hdly
      (List.length_pos_iff.mpr hq))
  · have hover : c.timeoutBudget ≤ (BitVec.ofNat 16 (c.pollInterval * lastPoll c)).toNat := by
      obtain ⟨hpos, -, -⟩ := valid_bounds hvalid
      rw [elapsed_of_poll hvalid le_rfl]
      exact timeoutBudget_le_lastPoll hpos
    refine (congrArg (coreStep c {}) (hround le_rfl)).trans (coreStep_polling_timeout
      (s := { s with elapsed := BitVec.ofNat 16 (c.pollInterval * lastPoll c) }) hst hdly ?_ hover)
    rw [tAvail_contract, hqueue, List.length_nil]

/-! ### An operation ends where LINE is silent -/

/-- One round with no other move: a CORE step, then a tick. -/
def quietRound (s : State) : State := tickStep (coreStep Config.source {} s)

theorem coreStep_started (a : Answers) (s : State) :
    (coreStep Config.source a s).started = s.started := by
  have hto := coreStep_to a s
  generalize coreStep Config.source a s = t at hto ⊢
  cases hto <;> rfl

theorem tickStep_started (s : State) : (tickStep s).started = s.started := by
  obtain ⟨-, -, hstep⟩ | ⟨-, hstep⟩ := tickStep_cases s <;> rw [hstep]

theorem quietRound_started (s : State) : (quietRound s).started = s.started :=
  (tickStep_started _).trans (coreStep_started {} s)

theorem quietRound_machineInv {s : State} (h : MachineInv s) : MachineInv (quietRound s) :=
  tickStep_machineInv (coreStep_machineInv {} h)

/-- The moves of one round are taken in two steps. -/
theorem run_quietRound (n : Nat) {s : State} {rest : List Move} (hstarted : s.started = true) :
    Host.Core.run Sys2Proof.core (n + 2) (s.setScript (.core {} :: .tick :: rest)) =
      Host.Core.run Sys2Proof.core n ((quietRound s).setScript rest) := by
  have hcore : step (s.setScript (.core {} :: .tick :: rest)) =
      .next ((coreStep Config.source {} s).setScript (.tick :: rest)) := by
    rw [step_core (s := s.setScript (.core {} :: .tick :: rest)) (upcoming_cons rfl) hstarted,
      coreMove_returns rfl]
    exact congrArg _ (coreStep_setScript Config.source {} s (.tick :: rest))
  have htick : step ((coreStep Config.source {} s).setScript (.tick :: rest)) =
      .next ((quietRound s).setScript rest) := by
    rw [step_tick (s := (coreStep Config.source {} s).setScript (.tick :: rest)) (upcoming_cons rfl)
      ((coreStep_started {} s).trans hstarted), tickStep_setScript]
    rfl
  exact (run_succ (n + 1) hcore).trans (run_succ n htick)

theorem run_quietRounds (n : Nat) {s : State} (hstarted : s.started = true) :
    Host.Core.run Sys2Proof.core (2 * n) (s.setScript (quietRounds n)) =
      .next ((quietRound^[n] s).setScript []) := by
  induction n generalizing s with
  | zero => rfl
  | succ n ih =>
    calc Host.Core.run Sys2Proof.core (2 * (n + 1)) (s.setScript (quietRounds (n + 1)))
        = Host.Core.run Sys2Proof.core (2 * n) ((quietRound s).setScript (quietRounds n)) :=
          run_quietRound (2 * n) hstarted
      _ = .next ((quietRound^[n + 1] s).setScript []) :=
          ih ((quietRound_started s).trans hstarted)

/-- A bound on the rounds that are left: one per byte of a drain, one per time unit of Waiting. -/
def roundsLeft (s : State) : Nat :=
  match s.st with
  | .flushing => s.rxq.length + 508
  | .sending => 507
  | .waiting => 506 - s.elapsed.toNat
  | .reading => 1
  | .idle | .done | .timedOut | .shortRd => 0

/-- A terminal state stays as it is. -/
theorem quietRound_terminal {s : State} (h : isTerminal s.st = true) : quietRound s = s := by
  have hst : s.st ≠ .waiting := by rintro hst; simp [hst, isTerminal] at h
  rw [quietRound, coreStep_disabled (coreEnabled_terminal h), tickStep_elsewhere (.inl hst)]

/-- A round of an operation ends it or leaves fewer rounds. -/
def Progresses (s t : State) : Prop :=
  isTerminal t.st = true ∨ busy t = true ∧ roundsLeft t < roundsLeft s

/-- A tick in a delay brings the end of Waiting one time unit closer. -/
theorem progresses_of_tick {s : State} (h : CountersInv Config.source s) (hst : s.st = .waiting)
    (hdly : s.dly ≠ 0#8) : Progresses s (tickStep s) := by
  have hbound := h.elapsed_add_dly_le
  have hup : (s.elapsed + 1#16).toNat = s.elapsed.toNat + 1 := by bv_omega
  right
  rw [tickStep_delay hst hdly]
  refine ⟨by simp [busy, hst], ?_⟩
  simp only [roundsLeft, hst, hup]
  omega

/-- Outside Waiting the tick of a round does nothing. -/
theorem tickStep_not_waiting {s : State} (hst : s.st ≠ .waiting) : tickStep s = s :=
  tickStep_elsewhere (.inl hst)

theorem quietRound_progresses {s : State} (h : MachineInv s) (hbusy : busy s = true)
    (hrunning : isTerminal s.st = false) : Progresses s (quietRound s) := by
  obtain ⟨hafter, -⟩ := coreStep_machineInv {} h
  obtain ⟨hcounters, -⟩ := h
  have hbound := hcounters.elapsed_add_dly_le
  have hto := coreStep_to {} s
  unfold quietRound
  generalize coreStep Config.source {} s = t at hto hafter ⊢
  cases hto with
  | rest hdisabled =>
    have hst : s.st = .waiting := by
      cases hst : s.st <;> simp_all [busy, isTerminal, coreEnabled]
    exact progresses_of_tick hcounters hst (by simpa [coreEnabled_waiting hst] using hdisabled)
  | drained hst =>
    rw [tickStep_not_waiting (by simp)]
    exact .inr ⟨rfl, by simp only [roundsLeft, hst]; omega⟩
  | dropped hst hsome =>
    rw [tickStep_not_waiting (by simp [hst])]
    refine .inr ⟨hbusy, ?_⟩
    simp only [tAvail_contract] at hsome
    simp only [roundsLeft, hst, readCount_contract, List.length_drop]
    omega
  | sent hst =>
    rw [tickStep_elsewhere (.inr rfl)]
    by_cases hop : s.op = 2#2
    · exact .inl (by simp [afterSend, hop, isTerminal])
    · exact .inr (by simp [afterSend, hop, busy, roundsLeft, hst])
  | data hst =>
    rw [tickStep_not_waiting (by simp)]
    exact .inr ⟨rfl, by simp only [roundsLeft, hst]; omega⟩
  | expired =>
    rw [tickStep_not_waiting (by simp)]
    exact .inl rfl
  | delayed hst =>
    have hdly : BitVec.ofNat 8 Config.source.pollInterval ≠ 0#8 := by decide
    have hticked := progresses_of_tick hafter hst hdly
    simpa only [Progresses, roundsLeft, hst] using hticked
  | read =>
    rw [tickStep_not_waiting (by simp [afterRead])]
    exact .inl rfl
  | short =>
    rw [tickStep_not_waiting (by simp [afterShortRead])]
    exact .inl rfl

theorem roundsLeft_pos {s : State} (h : CountersInv Config.source s) (hbusy : busy s = true)
    (hrunning : isTerminal s.st = false) : 0 < roundsLeft s := by
  have hbound := h.elapsed_add_dly_le
  unfold roundsLeft
  cases hst : s.st
  case flushing | sending | reading => simp
  case waiting => simp only; omega
  case idle => simp [busy, hst] at hbusy
  case done | timedOut | shortRd => simp [hst, isTerminal] at hrunning

theorem iterate_quietRound_terminal (n : Nat) {s : State} (h : isTerminal s.st = true) :
    isTerminal (quietRound^[n] s).st = true := by
  rwa [Function.iterate_fixed (quietRound_terminal h)]

/-- Rounds that are as many as the bound end the operation. -/
theorem terminal_of_roundsLeft_le {n : Nat} {s : State} (h : MachineInv s) (hbusy : busy s = true)
    (hn : roundsLeft s ≤ n) : isTerminal (quietRound^[n] s).st = true := by
  cases hterminal : isTerminal s.st with
  | true => exact iterate_quietRound_terminal n hterminal
  | false =>
    induction n generalizing s with
    | zero =>
      obtain ⟨hcounters, -⟩ := h
      have hpos := roundsLeft_pos hcounters hbusy hterminal
      omega
    | succ n ih =>
      rw [Function.iterate_succ_apply]
      obtain hended | ⟨hbusy', hfewer⟩ := quietRound_progresses h hbusy hterminal
      · exact iterate_quietRound_terminal n hended
      · cases hterminal' : isTerminal (quietRound s).st with
        | true => exact iterate_quietRound_terminal n hterminal'
        | false => exact ih (quietRound_machineInv h) hbusy' (by omega) hterminal'

theorem roundsLeft_le (s : State) : roundsLeft s ≤ s.rxq.length + 510 := by
  unfold roundsLeft
  split <;> omega

/-- Settles O48: every round of the run makes progress, and the bound is large enough from every state. -/
theorem operationEndsWhenLineIsSilent : Obligations.OperationEndsWhenLineIsSilent :=
  fun s h hstarted hbusy => ⟨roundsLeft s, _, roundsLeft_le s, run_quietRounds (roundsLeft s) hstarted,
    terminal_of_roundsLeft_le h hbusy le_rfl⟩

/-! ### Runs without end -/

/-- A property that every step from it meets again holds after every number of steps. -/
theorem run_of_kept {P : State → Prop} (hkept : ∀ t, P t → ∃ u, step t = .next u ∧ P u) (n : Nat)
    {s : State} (hs : P s) : ∃ t, Host.Core.run Sys2Proof.core n s = .next t ∧ P t := by
  induction n generalizing s with
  | zero => exact ⟨s, rfl, hs⟩
  | succ n ih =>
    obtain ⟨u, hstep, hu⟩ := hkept s hs
    obtain ⟨t, hrun, ht⟩ := ih hu
    exact ⟨t, (run_succ n hstep).trans hrun, ht⟩

/-- Rounds of FLUSH and feeds that come round for ever: where a round begins, those to come are what is left
of this turn, or the whole cycle again. -/
theorem upcoming_feedRounds {s : State} {left feeds : List (List Byte)}
    (hscript : s.script = feedRounds left) (hcycle : s.cycle = feedRounds feeds) :
    ∃ next, upcoming s = feedRounds next ∧ (next = feeds ∨ next = left ∧ left ≠ []) := by
  cases left with
  | nil => exact ⟨feeds, (upcoming_nil hscript).trans hcycle, .inl rfl⟩
  | cons feed left => exact ⟨feed :: left, upcoming_cons hscript, .inr ⟨rfl, List.cons_ne_nil _ _⟩⟩

/-- What the drain of `s` comes to: only the queue and the script differ. A FLUSH finds a byte, and a feed
that is not empty comes before the next FLUSH. -/
inductive Draining (s : State) : State → Prop where
  | beforeFlush (q : List Byte) (left : List (List Byte)) (hqueue : q ≠ [])
      (hleft : ∀ feed ∈ left, feed ≠ []) : Draining s { s with rxq := q, script := feedRounds left }
  | beforeFeed (q feed : List Byte) (left : List (List Byte)) (hfeed : feed ≠ [])
      (hleft : ∀ feed ∈ left, feed ≠ []) :
      Draining s { s with rxq := q, script := .line feed :: feedRounds left }

theorem draining_step {feeds : List (List Byte)} {s t : State} (hne : feeds ≠ [])
    (hfeeds : ∀ feed ∈ feeds, feed ≠ []) (hst : s.st = .flushing) (hstarted : s.started = true)
    (hcycle : s.cycle = feedRounds feeds) (ht : Draining s t) :
    ∃ u, step t = .next u ∧ Draining s u := by
  cases ht with
  | beforeFlush q left hqueue hleft =>
    obtain ⟨next, hnext, hwhich⟩ := upcoming_feedRounds
      (s := { s with rxq := q, script := feedRounds left }) rfl hcycle
    have hall : ∀ feed ∈ next, feed ≠ [] := by obtain rfl | ⟨rfl, -⟩ := hwhich <;> assumption
    have hsome : next ≠ [] := by obtain rfl | ⟨rfl, hleft'⟩ := hwhich <;> assumption
    obtain ⟨feed, rest, rfl⟩ := List.exists_cons_of_ne_nil hsome
    obtain ⟨hfeed, hrest⟩ := List.forall_mem_cons.mp hall
    exact ⟨_, step_core_flushing hnext hstarted hst (List.length_pos_iff.mpr hqueue),
      .beforeFeed (q.drop 1) feed rest hfeed hrest⟩
  | beforeFeed q feed left hfeed hleft =>
    exact ⟨_, step_line (upcoming_cons rfl) hstarted,
      .beforeFlush (q ++ feed) left (List.append_ne_nil_of_right_ne_nil _ hfeed) hleft⟩

/-- Settles O58: the drain never comes to a state that is no longer draining. -/
theorem endlessDrain : Obligations.EndlessDrain := by
  intro feeds s hne hfeeds hst hstarted hqueue hscript hcycle n
  have hstart : Draining s s := by
    have h := Draining.beforeFlush (s := s) s.rxq [] hqueue (by simp)
    rwa [show feedRounds [] = s.script from hscript.symm] at h
  obtain ⟨t, hrun, ht⟩ := run_of_kept (fun _ => draining_step hne hfeeds hst hstarted hcycle) n hstart
  refine ⟨t, hrun, ?_⟩
  cases ht <;> simp [cmdReady, busy, hst]

/-- What the delay of `s` comes to without a tick: only the queue and the script differ. -/
inductive Stopped (s : State) : State → Prop where
  | beforeCore (q : List Byte) (left : List (List Byte)) :
      Stopped s { s with rxq := q, script := feedRounds left }
  | beforeFeed (q feed : List Byte) (left : List (List Byte)) :
      Stopped s { s with rxq := q, script := .line feed :: feedRounds left }

section
variable {s t : State}

/-- In a delay a step with no move to come changes nothing. -/
theorem step_alone_in_delay (hst : s.st = .waiting) (hdly : s.dly ≠ 0#8) (hstarted : s.started = true)
    (hnext : upcoming s = []) : step s = .next s := by
  obtain ⟨-, hrest⟩ := core_rests_in_delay Config.source {} hst hdly
  rw [step_alone hnext hstarted, hrest]

/-- In a delay a CORE step offered is used up with no effect. -/
theorem step_core_in_delay {rest : List Move} (hst : s.st = .waiting) (hdly : s.dly ≠ 0#8)
    (hstarted : s.started = true) (hnext : upcoming s = .core {} :: rest) :
    step s = .next { s with script := rest } := by
  obtain ⟨-, hrest⟩ := core_rests_in_delay (s := { s with script := rest }) Config.source {} hst hdly
  rw [step_core hnext hstarted, coreMove_returns rfl, hrest]

theorem stopped_step {feeds : List (List Byte)} (hst : s.st = .waiting) (hdly : s.dly ≠ 0#8)
    (hstarted : s.started = true) (hcycle : s.cycle = feedRounds feeds) (ht : Stopped s t) :
    ∃ u, step t = .next u ∧ Stopped s u := by
  cases ht with
  | beforeCore q left =>
    obtain ⟨next, hnext, -⟩ := upcoming_feedRounds
      (s := { s with rxq := q, script := feedRounds left }) rfl hcycle
    cases next with
    | nil => exact ⟨_, step_alone_in_delay hst hdly hstarted hnext, .beforeCore q left⟩
    | cons feed rest => exact ⟨_, step_core_in_delay hst hdly hstarted hnext, .beforeFeed q feed rest⟩
  | beforeFeed q feed left =>
    exact ⟨_, step_line (upcoming_cons rfl) hstarted, .beforeCore (q ++ feed) left⟩

end

/-- Settles O59: without a tick no step leaves the delay. -/
theorem stoppedClockWaitsForEver : Obligations.StoppedClockWaitsForEver := by
  intro s hst hdly hstarted
  refine ⟨fun hnext n => ?_, fun feeds hscript hcycle n => ?_⟩
  · obtain ⟨t, hrun, rfl⟩ := run_of_kept (P := fun t => s = t)
      (fun t ht => ⟨t, ht ▸ step_alone_in_delay hst hdly hstarted hnext, ht⟩) n rfl
    exact hrun
  · have hstart : Stopped s s := by
      have h := Stopped.beforeCore (s := s) s.rxq []
      rwa [show feedRounds [] = s.script from hscript.symm] at h
    obtain ⟨t, hrun, ht⟩ := run_of_kept (fun _ => stopped_step hst hdly hstarted hcycle) n hstart
    refine ⟨t, hrun, ?_⟩
    cases ht <;> exact ⟨hst, rfl, rfl, rfl⟩

end Sys2Proof.Machine
end
